-- ==== Sys2Proof/Word.lean ====
section
/-! DEFINITION. The word types of the part: what the spec numbers, shifts or sends as bits. -/

namespace Sys2Proof

/-- One byte of a frame, of a reply or of a journal block. -/
abbrev Byte := BitVec 8

/-- One cell of a table: 32 bits (R174). -/
abbrev Cell := BitVec 32

/-- A loop time: a 32-bit millisecond count that wraps (R21). -/
abbrev LoopTime := BitVec 32

/-- A journal sequence number: a position of the journal, modulo 2³² (R158). -/
abbrev Seq := BitVec 32

end Sys2Proof
end

