-- ==== Sys2Proof/Config.lean ====
section
/-! DEFINITION. The free values: constants with no body, one for each value the spec leaves open.
Nothing in Lean can evaluate them, so a claim that holds holds whatever they are. -/

namespace Sys2Proof.Config

/-- DESIGN CHOICE (log 9). What a `w`-bit figure holds when the exact result `n` of a computation
does not fit it. The spec gives the ranges of its figures and no result outside them. -/
opaque beyondRange (w n : Nat) : BitVec w

/-- DESIGN CHOICE (log 10). What the part takes a coded byte of a journal body to mean when the
byte names none of the values 0 to `last` of its field. Only a record the part did not write
can hold one. -/
opaque foreignCode (last code : Nat) : Fin (last + 1)

/-- DESIGN CHOICE (log 11). Which of several pause causes CAST_PAUSED names when they come to hold
at one moment (R115, R120): an index into them, taken modulo their number. -/
opaque pausedArgument (causes : List Nat) : Nat

/-- DESIGN CHOICE (log 12). The request code in the REPLY to a MANAGE frame whose payload is empty
and so carries none (R171). -/
opaque missingCode : Byte

/-- DESIGN CHOICE (log 13). The rate used that a CAST_OPEN record carries for a brew of strain 0, which has
none (R128 gives the rate of a pitched brew only). -/
opaque unpitchedRate : BitVec 16

/-- DESIGN CHOICE (log 38). What a block holds after a full reset has cut its write short, from the block's number
and what it held. R163 says only that it reads bad or erased at the next mount. -/
opaque cutBlock (block : Nat) (held : List Byte) : List Byte

end Sys2Proof.Config
end

