-- ==== Sys2Proof/Syntax.lean ====
section
/-! DEFINITION. The commands of the part, one constructor for each row of the table of operations
and events, with the row's operands. -/

namespace Sys2Proof

/-- The four vessels, in the order of their numbers 0 to 3 (Terms). -/
inductive Vessel where
  | mash | lauter | kettle | whirlpool
deriving DecidableEq, Repr

/-- One character of the ring: eight value bits, the control bit, and whether its stop bit is
present (1.1). -/
structure Character where
  value   : Byte
  control : Bool
  stop    : Bool
deriving DecidableEq, Repr

/-- A management request as the request queue holds it: the station that sent it, its tag, and the
parameter bytes that follow the request code (R170, R172). -/
structure Request where
  source : Byte
  tag    : Byte
  params : List Byte
deriving DecidableEq, Repr

/-- What the journal store answers to a block read: the bytes it holds, or other bytes, which it
holds from then on (a worn block may answer anything; log 7). -/
inductive StoreAnswer where
  | asHeld
  | bytes (block : List Byte)
deriving DecidableEq, Repr

/-- The commands: the rows of spec/opcode_table.json in the table's order. -/
inductive Instr where
  /-- FULL_RESET (R3): power-on, or (`resetInput`) assertion of the reset input, which holds the part
  in reset; `pins` are the address pins' levels. -/
  | fullReset (resetInput : Bool) (pins : Byte)
  /-- FRAME_COMPLETE (R5): the bytes of a frame up to and with its last check byte arrive. -/
  | frameComplete (bytes : List Byte)
  /-- LINK_TIMER_EXPIRY (R12). -/
  | linkTimerExpiry
  /-- DOWNSTREAM_FRAME_SENT (R17). -/
  | downstreamFrameSent
  /-- STALE_EXPIRY (R28) of the point of a Point Table row. -/
  | staleExpiry (row : Nat)
  /-- HOLD_SLOT_EXPIRY (R48) of a hold slot. -/
  | holdSlotExpiry (slot : Nat)
  /-- REFRESH_TIMER_EXPIRY (R93) of a vessel's sequencer. -/
  | refreshTimerExpiry (vessel : Vessel)
  /-- HOLD_TIMER_EXPIRY (R88) of a vessel's sequencer. -/
  | holdTimerExpiry (vessel : Vessel)
  /-- TRANSFER_UNBLOCKED (R64) of a source vessel's sequencer. -/
  | transferUnblocked (source : Vessel)
  /-- CONFIRM_TIMER_EXPIRY (R102). -/
  | confirmTimerExpiry
  /-- CAST_OPEN_RETRY (R113). -/
  | castOpenRetry
  /-- STROKE_TIMER_EXPIRY (R134). -/
  | strokeTimerExpiry
  /-- SETTLE_TIMER_EXPIRY (R123). -/
  | settleTimerExpiry
  /-- CAST_CLOSE_REOFFER (R125). -/
  | castCloseReoffer
  /-- FIRST_ACTIVATION (R149). -/
  | firstActivation
  /-- POWER_FAIL_WARNING (R184): the input is asserted. -/
  | powerFailWarning
  /-- POWER_WARNING_WITHDRAWN (R184). -/
  | powerWarningWithdrawn
  /-- JOURNAL_PROTECT_ASSERTED (R163). -/
  | journalProtectAsserted
  /-- JOURNAL_PROTECT_WITHDRAWN (R163). -/
  | journalProtectWithdrawn
  /-- JOURNAL_WRITE_BEGIN (R161). -/
  | journalWriteBegin
  /-- JOURNAL_ERASE_DONE (R161). -/
  | journalEraseDone
  /-- JOURNAL_PROGRAM_DONE (R161). -/
  | journalProgramDone
  /-- JOURNAL_READBACK_DONE (R161), with what the store answered. -/
  | journalReadbackDone (answer : StoreAnswer)
  /-- JOURNAL_READ_BLOCK_DONE (R166), with what the store answered. -/
  | journalReadBlockDone (answer : StoreAnswer)
  /-- MOUNT_BLOCK_READ_DONE (R167), with what the store answered. -/
  | mountBlockReadDone (answer : StoreAnswer)
  /-- REPORT_TIMER_EXPIRY (R181). -/
  | reportTimerExpiry
  /-- STATUS_READ (R179). -/
  | statusRead (request : Request)
  /-- CLEAR_CONDITIONS (R177). -/
  | clearConditions (request : Request)
  /-- TABLE_WINDOW (R174). -/
  | tableWindow (request : Request)
  /-- TABLE_WRITE (R175). -/
  | tableWrite (request : Request)
  /-- TABLE_READ (R176). -/
  | tableRead (request : Request)
  /-- PART_CONFIG (R183). -/
  | partConfig (request : Request)
  /-- RESET_FULL (R184), with the address pins' levels, which a full reset reads. -/
  | resetFull (request : Request) (pins : Byte)
  /-- RESET_VESSELS (R184). -/
  | resetVessels (request : Request)
  /-- BREW_OPEN (R55). -/
  | brewOpen (request : Request)
  /-- BREW_ASSIGN (R57). -/
  | brewAssign (request : Request)
  /-- BREW_ABANDON (R58). -/
  | brewAbandon (request : Request)
  /-- BREW_RELEASE (R59). -/
  | brewRelease (request : Request)
  /-- BREW_READ (R59). -/
  | brewRead (request : Request)
  /-- VESSEL_CLEAR (R68). -/
  | vesselClear (request : Request)
  /-- VESSEL_START (R80). -/
  | vesselStart (request : Request)
  /-- GROUP_START (R81). -/
  | groupStart (request : Request)
  /-- VESSEL_HALT (R84). -/
  | vesselHalt (request : Request)
  /-- CONTINUE (R83). -/
  | continueStep (request : Request)
  /-- AUTHORITY (R40). -/
  | authority (request : Request)
  /-- LOCK (R41). -/
  | lock (request : Request)
  /-- RELEASE (R46). -/
  | release (request : Request)
  /-- DISCARD (R47). -/
  | discard (request : Request)
  /-- CAST_END (R122). -/
  | castEnd (request : Request)
  /-- CAST_READ (R111). -/
  | castRead (request : Request)
  /-- CAST_SETTLE (R155). -/
  | castSettle (request : Request)
  /-- PERIOD_CLOSE (R153). -/
  | periodClose (request : Request)
  /-- DUTY_READ (R152). -/
  | dutyRead (request : Request)
  /-- JOURNAL_READ (R166). -/
  | journalRead (request : Request)
  /-- JOURNAL_RELEASE (R165). -/
  | journalRelease (request : Request)
  /-- JOURNAL_RETRY (R162). -/
  | journalRetry (request : Request)
  /-- CHARACTER_RECEIVED (R1). -/
  | characterReceived (character : Character)
  /-- RESET_INPUT_RELEASED (R2), with the address pins' levels. -/
  | resetInputReleased (pins : Byte)
  /-- UNKNOWN_REQUEST_CODE (R171): a MANAGE frame's payload whose request code is unknown. The code is the
  first byte of `payload`, which may be empty. -/
  | unknownRequestCode (source tag : Byte) (payload : List Byte)
deriving DecidableEq, Repr

end Sys2Proof
end

