-- ==== Sys2Proof/Decode.lean ====
section
/-! DEFINITION. The reading of a command from a word. The table of operations and events gives no row any bits, so
no word spells a command. -/

namespace Sys2Proof

/-- The command a word of `nbits` bits spells: none, for every word. -/
def decodeTableWord (nbits w : Nat) : Option Instr :=
  match nbits, w with
  | _, _ => none

end Sys2Proof
end

