-- ==== Sys2Proof/Machine/Types.lean ====
section
/-! DEFINITION. The data of the part: frames, points, brews, sequencers, the cast, duty, journal
records, conditions and events, as plain data. -/

namespace Sys2Proof.Machine

/-! ### Vessels -/

/-- One thing for each of the four vessels. -/
structure PerVessel (α : Type) where
  mash      : α
  lauter    : α
  kettle    : α
  whirlpool : α
deriving DecidableEq, Repr

/-- The entry of a vessel. -/
def PerVessel.get {α : Type} (p : PerVessel α) : Vessel → α
  | .mash => p.mash
  | .lauter => p.lauter
  | .kettle => p.kettle
  | .whirlpool => p.whirlpool

/-- The same entries with one vessel's replaced. -/
def PerVessel.set {α : Type} (p : PerVessel α) (v : Vessel) (a : α) : PerVessel α :=
  match v with
  | .mash => { p with mash := a }
  | .lauter => { p with lauter := a }
  | .kettle => { p with kettle := a }
  | .whirlpool => { p with whirlpool := a }

/-- The same entry for every vessel. -/
def PerVessel.all {α : Type} (a : α) : PerVessel α := ⟨a, a, a, a⟩

/-- A vessel's number (Terms). -/
def vesselNumber : Vessel → Nat
  | .mash => 0
  | .lauter => 1
  | .kettle => 2
  | .whirlpool => 3

/-- The vessel of a number 0 to 3. -/
def vesselOf : Nat → Option Vessel
  | 0 => some .mash
  | 1 => some .lauter
  | 2 => some .kettle
  | 3 => some .whirlpool
  | _ => none

/-- The four vessels in vessel order. -/
def vessels : List Vessel := [.mash, .lauter, .kettle, .whirlpool]

/-- The destination of a transfer out of a vessel (R63). -/
def destinationOf : Vessel → Option Vessel
  | .mash => some .lauter
  | .lauter => some .kettle
  | .kettle => some .whirlpool
  | .whirlpool => none

/-- The one possible source of a transfer into a vessel (R63). -/
def sourceOf : Vessel → Option Vessel
  | .mash => none
  | .lauter => some .mash
  | .kettle => some .lauter
  | .whirlpool => some .kettle

/-- The vessels that have a heat point: the mashing vessel and the kettle (R60, 5.7). -/
def heated : Vessel → Bool
  | .mash => true
  | .lauter => false
  | .kettle => true
  | .whirlpool => false

/-! ### The loop -/

/-- A frame (1.3). `check` is the CRC it carries. -/
structure Frame where
  kind    : Byte
  dest    : Byte
  source  : Byte
  hop     : Byte
  tag     : Byte
  payload : List Byte
  check   : BitVec 16
deriving DecidableEq, Repr

/-- The block that offered an insertion frame (R13, R14). A dose frame carries the number of the cast
it strokes for ("a dose DRIVE of this cast", 8.2). -/
inductive Owner where
  | agent
  | guardUnit
  | sequencer (vessel : Vessel)
  | boilUnit
  | pitchUnit (cast : Nat)
  | castMeter
deriving DecidableEq, Repr

/-- A place of the insertion queue: the frame, its entry time and who offered it (R14). -/
structure Insertion where
  frame : Frame
  entry : LoopTime
  owner : Owner
deriving DecidableEq, Repr

/-- What the downstream port does (R17). A transit frame being sent is the oldest of the transit
buffer and keeps its place until it is out (R11). -/
inductive PortState where
  | idle
  | sendingTransit
  | sendingInsertion (frame : Frame)
deriving DecidableEq, Repr

/-- The Loop Port's state (chapter 1). -/
structure LoopPort where
  rx          : Option (List Byte)
  frameErrors : Nat
  linkDown    : Bool
  linkTimer   : Option LoopTime
  transit     : List Frame
  queue       : List Insertion
  port        : PortState
  congested   : Bool
  repeated    : Option Character
deriving DecidableEq, Repr

/-- The outcome of an offer to the insertion queue (R14 to R16), or that no frame could be built for
want of a valid point row (R74, R96). `begun` is a frame taken and begun at once by an idle port. -/
inductive OfferResult where
  | noPoint | refused | queued | begun
deriving DecidableEq, Repr

/-- Whether the insertion queue took the frame. -/
def OfferResult.taken : OfferResult → Bool
  | .noPoint => false
  | .refused => false
  | .queued => true
  | .begun => true

/-! ### Points -/

/-- The kinds of a point, in the order of 2.1. -/
inductive PointKind where
  | temperature | gravity | level | flowCount
  | heatDrive | pumpDrive | valveDrive | doseDrive | additionDrive | panel
deriving DecidableEq, Repr

/-- A point's binding (2.1). -/
inductive Binding where
  | vessel (v : Vessel) | line | unbound
deriving DecidableEq, Repr

/-- The fields of a Point Table row but VALID (2.1). -/
structure PointRow where
  station    : Nat
  channel    : Nat
  kind       : PointKind
  binding    : Binding
  gain       : Int
  offset     : Int
  staleLimit : Nat
  owned      : Bool
deriving DecidableEq, Repr

inductive Quality where
  | good | uncertain | bad | stale
deriving DecidableEq, Repr

/-- A value and the loop time it arrived at. -/
structure Reading where
  value : Int
  time  : LoopTime
deriving DecidableEq, Repr

/-- An entry of the Point Value Table (2.4). -/
structure PointEntry where
  current    : Option Reading
  quality    : Quality
  clamped    : Bool
  previous   : Option Reading
  staleTimer : Option LoopTime
deriving DecidableEq, Repr

/-- The empty entry of R29. -/
def PointEntry.empty : PointEntry :=
  { current := none, quality := .stale, clamped := false, previous := none, staleTimer := none }

/-- The formats of a SAMPLE item (1.3). -/
inductive SampleFormat where
  | short | long | count
deriving DecidableEq, Repr

/-- One item of a SAMPLE payload. -/
structure SampleItem where
  channel : Nat
  format  : SampleFormat
  quality : Quality
  raw     : Int
deriving DecidableEq, Repr

/-! ### Authority and hold slots -/

inductive Authority where
  | hand | auto
deriving DecidableEq, Repr

/-- The record of a holding slot (3.4). -/
structure Hold where
  frame  : Frame
  point  : Nat
  vessel : Vessel
  step   : Option Nat
  time   : LoopTime
deriving DecidableEq, Repr

/-! ### Brews and vessels -/

inductive GravityPolicy where
  | holdLast | pause
deriving DecidableEq, Repr

inductive LagPolicy where
  | pause | continue_
deriving DecidableEq, Repr

inductive BrewState where
  | opened | mashing | lautering | boiling | whirlpool | casting | cast | abandoned
deriving DecidableEq, Repr

/-- The mash record (4.1). -/
structure MashRecord where
  steps     : Nat
  rest      : Nat
  deviation : Nat
deriving DecidableEq, Repr

inductive MissCause where
  | timeout | targetReached | noPoint | sendFull | halted
deriving DecidableEq, Repr

/-- The boil record (6.2). `evaporation` is the pair of decilitres and per-mille. -/
structure BoilRecord where
  start          : LoopTime
  clock          : Nat
  startLevel     : Option Nat
  endLevel       : Option Nat
  evaporation    : Option (Nat × Nat)
  levelMissing   : Bool
  lowEvaporation : Bool
  halted         : Bool
  fired          : List (Nat × Nat)
  missed         : List (Nat × MissCause)
deriving DecidableEq, Repr

/-- A brew record (4.1). -/
structure Brew where
  number    : Nat
  recipe    : Nat
  fermenter : Nat
  strain    : Nat
  override  : Nat
  gravity   : GravityPolicy
  lag       : LagPolicy
  state     : BrewState
  occupied  : List Vessel
  mash      : Option MashRecord
  boil      : Option BoilRecord
  castNo    : Option Nat
deriving DecidableEq, Repr

inductive Occupancy where
  | empty | resident | filling | draining
deriving DecidableEq, Repr

/-- A vessel's record: the Brew Manager's (4.5) and the Authority and Guard Unit's (3.1). -/
structure VesselRec where
  occupant       : Option Nat
  occupancy      : Occupancy
  authority      : Authority
  supervisorLock : Bool
  stepLock       : Bool
deriving DecidableEq, Repr

/-! ### Sequencers -/

inductive SeqState where
  | idle | armed | running | suspended | blocked | halted
deriving DecidableEq, Repr

inductive Phase where
  | begun | inEffect
deriving DecidableEq, Repr

/-- The set of suspension causes (5.3). -/
structure Causes where
  hand  : Bool
  stale : Bool
  link  : Bool
  power : Bool
deriving DecidableEq, Repr

/-- Whether any cause holds. -/
def Causes.any (c : Causes) : Bool := c.hand || c.stale || c.link || c.power

/-- The refusal reasons of a cast open attempt, in the order of R112. -/
inductive OpenRefusal where
  | journalNotReady | journalProtected | journalFailed | journalFull | journalBusy
  | orphans | noTariff | lineInvalid | noLineValue
deriving DecidableEq, Repr

inductive BlockReason where
  | destinationBusy
  | castRefused (reason : OpenRefusal)
deriving DecidableEq, Repr

/-- An offer the insertion queue refused, awaiting a new offer (5.3): the point row, the demand, and
whether it is the current DRIVE step's frame. -/
structure UnsentOffer where
  row    : Nat
  demand : Nat
  ofStep : Bool
deriving DecidableEq, Repr

/-- A sequencer's record (5.3). `list` is the recipe whose list for this vessel is loaded.
`noPoint` and `onTemperature` are implied by R74 and R87 (log 20), `zeroForced` by R94 (log 45): a forced zero that no
computed demand has followed. -/
structure Sequencer where
  state         : SeqState
  list          : Option Nat
  position      : Option Nat
  phase         : Phase
  causes        : Causes
  blocked       : Option BlockReason
  setpoint      : Option Int
  rampRemainder : Nat
  restClock     : Nat
  holdElapsed   : Nat
  holdSince     : Option LoopTime
  integral      : Int
  dtBase        : Bool
  lastDemand    : Nat
  zeroForced    : Bool
  unsent        : List UnsentOffer
  refreshTimer  : Option LoopTime
  noPoint       : Bool
  onTemperature : Bool
deriving DecidableEq, Repr

/-- The kinds of a step, in the order of 5.2. -/
inductive StepKind where
  | hold | ramp | wait | drive | transfer | boil | cast
deriving DecidableEq, Repr

/-! ### The boil -/

/-- An entry of the Boil Unit's send queue (6.2). -/
structure SendEntry where
  brew     : Nat
  index    : Nat
  point    : Nat
  quantity : Nat
deriving DecidableEq, Repr

/-- The Boil Unit (6.2). `headRefused` says that the head of the send queue counts as an unsent offer
of the kettle sequencer (R103). -/
structure BoilUnit where
  begun        : Bool
  clock        : Nat
  cursor       : Nat
  pending      : Option Nat
  confirmTimer : Option LoopTime
  sendQueue    : List SendEntry
  outstanding  : Bool
  headRefused  : Bool
deriving DecidableEq, Repr

/-! ### Duty -/

/-- A tariff bank image: the header's figures, eight band rows (upper bound, rate) and four tier rows
(upper bound, relief) (9.4). -/
structure TariffImage where
  allowance : Nat
  bandCount : Nat
  tierCount : Nat
  bands     : List (Nat × Nat)
  tiers     : List (Nat × Nat)
deriving DecidableEq, Repr

inductive DutySource where
  | metered | declared
deriving DecidableEq, Repr

/-- A tier portion (R143). -/
structure Portion where
  tier   : Nat
  q      : Nat
  gross  : Nat
  relief : Nat
  net    : Nat
deriving DecidableEq, Repr

/-- The duty part (9.2). -/
structure DutyPart where
  tariffSeq  : Seq
  source     : DutySource
  v20mL      : Nat
  gm         : Nat
  dl         : Nat
  allowance  : Nat
  a          : Nat
  cdl        : Nat
  band       : Nat
  rate       : Nat
  aboveBands : Bool
  baseY      : Nat
  portions   : List Portion
  n          : Nat
  d          : Nat
deriving DecidableEq, Repr

/-- A pending charge (R139). -/
structure Charge where
  cast : Nat
  dl   : Nat
  cdl  : Nat
  d    : Nat
deriving DecidableEq, Repr

/-- The Duty Account (9.5). The active tariff sequence stands with the active tariff. -/
structure Account where
  period : Nat
  casts  : Nat
  dl     : Nat
  cdl    : Nat
  duty   : Nat
  ytd    : Nat
deriving DecidableEq, Repr

inductive TariffState where
  | none | activating | active | changing
deriving DecidableEq, Repr

/-- The figures a PERIOD_CLOSE record holds (10.1). -/
structure CloseBody where
  period    : Nat
  casts     : Nat
  dl        : Nat
  cdl       : Nat
  duty      : Nat
  ytd       : Nat
  yearEnd   : Bool
  castCount : Nat
deriving DecidableEq, Repr

/-- A period close whose reply is deferred: its figures and whether a TARIFF record follows (R154). -/
structure Closing where
  figures    : CloseBody
  withTariff : Bool
deriving DecidableEq, Repr

/-- The Duty Accountant (chapter 9). `bankTouched` says that a cell of the pending bank has been written
since the image was taken (R149, R154). -/
structure Duty where
  tariff      : TariffState
  active      : TariffImage
  activeSeq   : Seq
  bankTouched : Bool
  account     : Account
  charges     : List Charge
  closing     : Option Closing
deriving DecidableEq, Repr

/-! ### Pitch and cast -/

/-- The pitch part (8.2). -/
structure PitchPart where
  strain        : Nat
  rate          : Nat
  target        : Nat
  issued        : Nat
  confirmed     : Nat
  unconfirmed   : Nat
  outstanding   : Bool
  consecutive   : Nat
  late          : Nat
  sequence      : Nat
  frameQueued   : Bool
  unsent        : Bool
  strokeTimer   : Option LoopTime
  pitchLag      : Bool
  lagged        : Bool
  dosingFailed  : Bool
  deficit       : Option Nat
deriving DecidableEq, Repr

inductive CastState where
  | opening | metering | paused | settling | charging | closed
deriving DecidableEq, Repr

inductive EndCause where
  | level | request | estop | abandon | vesselReset | power
deriving DecidableEq, Repr

inductive PauseCause where
  | gravityStale | pitchLag | dosingFailed | notAuto
deriving DecidableEq, Repr

/-- The flags of a cast record (7.3). -/
structure CastFlags where
  gravityHeld  : Bool
  meterRebased : Bool
  interrupted  : Bool
  levelEnd     : Bool
  requestEnd   : Bool
deriving DecidableEq, Repr

/-- The cast record (7.3). `rebasePending`, `settleTimer` and `settleOver` are the state R119 and R123
imply (log 21). -/
structure Cast where
  number        : Nat
  brew          : Nat
  fermenter     : Nat
  tariffSeq     : Seq
  opened        : LoopTime
  closed        : Option LoopTime
  state         : CastState
  endCause      : Option EndCause
  pauses        : List PauseCause
  lineVolume    : Nat
  v20           : Nat
  r             : Nat
  gv            : Nat
  lastCount     : Option (BitVec 32)
  rebases       : Nat
  pauseCount    : Nat
  flags         : CastFlags
  pitch         : Option PitchPart
  duty          : Option DutyPart
  rebasePending : Bool
  settleTimer   : Option LoopTime
  settleOver    : Bool
deriving DecidableEq, Repr

/-! ### Journal -/

/-- A CAST_OPEN body (10.1). -/
structure OpenBody where
  cast      : Nat
  fermenter : Nat
  opened    : LoopTime
  tariffSeq : Seq
  strain    : Nat
  rate      : Nat
  gravity   : GravityPolicy
  lag       : LagPolicy
deriving DecidableEq, Repr

/-- A CAST_SETTLED body (10.1). -/
structure SettledBody where
  cast      : Nat
  fermenter : Nat
  openSeq   : Seq
  duty      : DutyPart
deriving DecidableEq, Repr

/-- The latest PERIOD_CLOSE record as the part keeps it and a RELEASE record carries it (R159): its
sequence, closed period, year-to-date CDL and year-end flag. -/
structure LastClose where
  seq     : Seq
  period  : Nat
  ytd     : Nat
  yearEnd : Bool
deriving DecidableEq, Repr

/-- A RELEASE body (10.1): the released-to sequence and the carried state. -/
structure ReleaseBody where
  releasedTo : Seq
  close      : LastClose
  castCount  : Nat
  tariffSeq  : Option Seq
  tariff     : TariffImage
deriving DecidableEq, Repr

/-- The body of a journal record, by record kind (10.1). A CAST_CLOSE holds fields of the cast record,
its pitch part and its duty part. -/
inductive Body where
  | tariff (image : TariffImage)
  | castOpen (body : OpenBody)
  | castClose (cast : Cast)
  | castSettled (body : SettledBody)
  | periodClose (body : CloseBody)
  | release (body : ReleaseBody)
deriving DecidableEq, Repr

/-- A record in the write queue: its body and header figures, its skip count, and whether its
reservation is consumed (R159, R160, R161). -/
structure Draft where
  body   : Body
  brew   : Nat
  period : Nat
  skip   : Nat
  placed : Bool
deriving DecidableEq, Repr

/-- A good record read from the store (R157). -/
structure Record where
  seq    : Seq
  skip   : Nat
  brew   : Nat
  period : Nat
  body   : Body
deriving DecidableEq, Repr

inductive MountState where
  | unmounted | mounting | ready
deriving DecidableEq, Repr

/-- The store operation under way (10.1). The mount's reads go on while the state is MOUNTING. -/
inductive StoreOp where
  | free | erasing | programming | verifying | reading
deriving DecidableEq, Repr

/-- Which of a waiting read and a waiting record goes first when the store falls free (R166). -/
inductive Turn where
  | record | read
deriving DecidableEq, Repr

/-- A JOURNAL_READ request under service: its positions, page, and the reply entries read so far. -/
structure ReadJob where
  seq     : Seq
  count   : Nat
  page    : Nat
  done    : Nat
  entries : List Byte
deriving DecidableEq, Repr

/-- An entry of the orphan list (R168). -/
structure Orphan where
  cast      : Nat
  brew      : Nat
  fermenter : Nat
  tariffSeq : Seq
deriving DecidableEq, Repr

/-- The Journal Port (chapter 10). `mountBlock`, `mountGood` and `mountBad` are the mount's progress. -/
structure Journal where
  mount        : MountState
  head         : Seq
  tail         : Seq
  reservations : Nat
  queue        : List Draft
  consecutive  : Nat
  failed       : Bool
  castCount    : Nat
  lastClose    : Option LastClose
  orphans      : List Orphan
  unlisted     : Nat
  op           : StoreOp
  turn         : Turn
  reads        : List ReadJob
  mountBlock   : Nat
  mountGood    : List Record
  mountBad     : List Nat
deriving DecidableEq, Repr

/-- The journal store: the blocks that are not erased, as (block number, 512 bytes), block numbers
strictly rising (10.1, log 7). -/
abbrev Store := List (Nat × List Byte)

/-! ### The Management Agent -/

/-- The members of the condition set, in the order of the table of 11.3. -/
inductive Cond where
  | pvStale (v : Vessel) | suspended (v : Vessel) | blocked (v : Vessel) | held (v : Vessel)
  | gravityHeld | meterFault | pitchLag | dosingFailed | linkDown | egressCongested
  | journalNotReady | journalFailed | journalProtected | journalNearFull | orphansPresent
  | tariffPending | powerWarning
  | frameErrors | tableReject | eventShed | eventOverflow | journalDamaged | orphanOverflow
deriving DecidableEq, Repr

/-- The six latched conditions, in the order of the table of 11.3. -/
def latchedConds : List Cond :=
  [.frameErrors, .tableReject, .eventShed, .eventOverflow, .journalDamaged, .orphanOverflow]

/-- Every condition in the order of the table of 11.3: 35 members (R182). -/
def allConds : List Cond :=
  vessels.map .pvStale ++ vessels.map .suspended ++ vessels.map .blocked ++ vessels.map .held ++
  [.gravityHeld, .meterFault, .pitchLag, .dosingFailed, .linkDown, .egressCongested,
   .journalNotReady, .journalFailed, .journalProtected, .journalNearFull, .orphansPresent,
   .tariffPending, .powerWarning] ++ latchedConds

/-- The kinds of event, in the order of their codes 1 to 28 (R182). -/
inductive EventKind where
  | authorityChanged | panelRefused | forgedOrigin | driveHeld | guardFull | heldDiscarded | heldExpired
  | brewState
  | stepBegun | stepDone | startRefused
  | boilBegun | additionDue | additionFired | additionMissed | boilDone | lowEvaporation
  | castOpened | castPaused | castResumed | meterRebased | castClosed
  | doseLate | doseTimeout | doseSequence
  | dutyCharged | periodClosed
  | journalBlockBad
deriving DecidableEq, Repr

inductive Subject where
  | none
  | vessel (v : Vessel)
  | cast (number : Nat)
deriving DecidableEq, Repr

inductive EventArg where
  | num (n : Nat)
  | absent
  | noPoint
deriving DecidableEq, Repr

/-- An entry of the event queue (R180). Its class is fixed by its kind. -/
structure Event where
  time    : LoopTime
  kind    : EventKind
  subject : Subject
  brew    : Option Nat
  arg     : EventArg
deriving DecidableEq, Repr

/-- The results of a reply, in the order of their codes 0 to 16 (R172). -/
inductive Result where
  | ok | badRequest | queueFull | busy | range | notFound | notHeld | notArmed | locked
  | notReady | tableFull | duplicate | vesselBusy | recipeInvalid | strainInvalid
  | journalFull | orphans
deriving DecidableEq, Repr

/-- A MANAGE frame in the request queue: its source, tag and payload (R170). -/
structure Queued where
  source  : Byte
  tag     : Byte
  payload : List Byte
deriving DecidableEq, Repr

/-- A deferred reply (R171). -/
structure Deferred where
  source : Byte
  tag    : Byte
  code   : Nat
deriving DecidableEq, Repr

/-- The table window (R174). -/
structure Window where
  table      : Nat
  firstRow   : Nat
  lastRow    : Nat
  firstField : Nat
  lastField  : Nat
  fieldMajor : Bool
deriving DecidableEq, Repr

/-- A cell of the window: row and field. -/
structure Pointer where
  row   : Nat
  field : Nat
deriving DecidableEq, Repr

/-- A kept TABLE_WRITE or TABLE_READ: its source, tag and parameter bytes, and its REPLY (R176). -/
structure Kept where
  request : Request
  result  : Result
  data    : List Byte
deriving DecidableEq, Repr

/-- The configuration (R183). -/
structure PartConfig where
  supervisor : Nat
  fairness   : Nat
  interval   : Nat
deriving DecidableEq, Repr

/-- The Management Agent (chapter 11). `latched` holds the latched conditions whose cause has occurred
since they were last cleared; `reportLimit` is the interval the running report timer runs to (R183). -/
structure Agent where
  requests    : List Queued
  deferred    : List Deferred
  window      : Option Window
  writePtr    : Pointer
  readPtr     : Pointer
  keptWrite   : Option Kept
  keptRead    : Option Kept
  conditions  : List Cond
  acked       : List Cond
  reported    : List Cond
  latched     : List Cond
  events      : List Event
  shedding    : Bool
  reportTimer : Option LoopTime
  reportLimit : Nat
  config      : PartConfig
deriving DecidableEq, Repr

end Sys2Proof.Machine
end

