-- ==== Sys2Proof/Machine/Bytes.lean ====
section
/-! DEFINITION. Codings: numbers into bytes, most significant byte first (R172), the CRC of a frame (R6), the
bytes of a frame (1.3), and the codes of enumerated values (R172). -/

namespace Sys2Proof.Machine

/-- `n` in a figure of `w` bits: itself where it fits, else what the part leaves free (log 9). -/
def fit (w n : Nat) : Nat := if n < 2 ^ w then n else (Config.beyondRange w n).toNat

/-- The `w` low bytes of `n`, most significant first. -/
def digits : Nat → Nat → List Byte
  | 0, _ => []
  | w + 1, n => BitVec.ofNat 8 (n / 256 ^ w) :: digits w n

/-- A number in `w` bytes (R172). -/
def num (w n : Nat) : List Byte := digits w (fit (8 * w) n)

/-- A signed number in `w` bytes, in two's complement (R172). -/
def sint (w : Nat) (i : Int) : List Byte := digits w (i % (256 ^ w : Nat)).toNat

/-- The number bytes stand for, most significant first. -/
def natOf (bs : List Byte) : Nat := bs.foldl (fun a b => a * 256 + b.toNat) 0

/-- The signed number bytes stand for, in two's complement. -/
def intOf (bs : List Byte) : Int :=
  if 2 * natOf bs < 256 ^ bs.length then (natOf bs : Int) else (natOf bs : Int) - (256 ^ bs.length : Nat)

/-- An optional field: a byte 0 when absent, or 1 and the field (R172). -/
def optional {α : Type} (f : α → List Byte) : Option α → List Byte
  | none => num 1 0
  | some a => num 1 1 ++ f a

/-- A list field: its present length in one byte and its entries in order (R172). -/
def listField {α : Type} (f : α → List Byte) (l : List α) : List Byte := num 1 l.length ++ l.flatMap f

/-- A mask of flags, the first listed being the least significant bit (R172). -/
def maskOf : List Bool → Nat
  | [] => 0
  | b :: bs => b.toNat + 2 * maskOf bs

/-- A two-valued field whose listed order puts the value `b` says first: "set, clear", "yes, no", "on, off",
"running, stopped" (R172): the first is coded 0. -/
def firstIfSet (b : Bool) : Nat := if b then 0 else 1

/-! ### The CRC (R6) -/

/-- One bit of the division by x¹⁶ + x¹² + x⁵ + 1. -/
def crcBit (c : BitVec 16) : BitVec 16 := if c.msb then (c <<< 1) ^^^ 0x1021#16 else c <<< 1

/-- One byte, entered most significant bit first. -/
def crcByte (c : BitVec 16) (b : Byte) : BitVec 16 :=
  Nat.repeat crcBit 8 (c ^^^ (b.setWidth 16 <<< 8))

/-- The CRC-16 of R6: starting value all ones, no final inversion. -/
def crc16 (bs : List Byte) : BitVec 16 := bs.foldl crcByte 0xFFFF#16

/-! ### Frames (1.3) -/

/-- The bytes the check covers, from Kind through the payload (R6). -/
def Frame.covered (f : Frame) : List Byte :=
  [f.kind, f.dest, f.source, f.hop, f.tag, BitVec.ofNat 8 f.payload.length] ++ f.payload

/-- The frame with its check recomputed (R10, R13). -/
def Frame.sealed (f : Frame) : Frame := { f with check := crc16 f.covered }

/-- The frame's characters after START: Kind through Check, the check's high byte first (R6). -/
def Frame.bytes (f : Frame) : List Byte :=
  f.covered ++ [(f.check >>> 8).setWidth 8, f.check.setWidth 8]

/-- How many bytes the open frame has from Kind through Check once its Length has arrived (R5). -/
def frameLength (buffer : List Byte) : Option Nat := buffer[5]?.map fun l => 8 + l.toNat

/-- The frame a whole run of bytes from Kind through Check stands for. -/
def Frame.ofBytes (bs : List Byte) : Frame :=
  let n := (bs.getD 5 0).toNat
  let c := (bs.drop (6 + n))
  { kind := bs.getD 0 0, dest := bs.getD 1 0, source := bs.getD 2 0, hop := bs.getD 3 0
    tag := bs.getD 4 0, payload := (bs.drop 6).take n
    check := (c.getD 0 0).setWidth 16 <<< 8 ||| (c.getD 1 0).setWidth 16 }

/-! ### Kinds of frame (1.3) -/

def kindSample : Byte := 0x01
def kindDrive : Byte := 0x02
def kindNotice : Byte := 0x03
def kindManage : Byte := 0x10
def kindReply : Byte := 0x11
def kindReport : Byte := 0x12

/-- Whether Kind is one of the six codes (R6). -/
def knownKind (k : Byte) : Bool :=
  k == kindSample || k == kindDrive || k == kindNotice || k == kindManage || k == kindReply
    || k == kindReport

/-! ### Codes of enumerated values (R172) -/

def authorityCode : Authority → Nat
  | .hand => 0
  | .auto => 1

def occupancyCode : Occupancy → Nat
  | .empty => 0
  | .resident => 1
  | .filling => 2
  | .draining => 3

def seqStateCode : SeqState → Nat
  | .idle => 0
  | .armed => 1
  | .running => 2
  | .suspended => 3
  | .blocked => 4
  | .halted => 5

def phaseCode : Phase → Nat
  | .begun => 0
  | .inEffect => 1

def openRefusalCode : OpenRefusal → Nat
  | .journalNotReady => 0
  | .journalProtected => 1
  | .journalFailed => 2
  | .journalFull => 3
  | .journalBusy => 4
  | .orphans => 5
  | .noTariff => 6
  | .lineInvalid => 7
  | .noLineValue => 8

def brewStateCode : BrewState → Nat
  | .opened => 0
  | .mashing => 1
  | .lautering => 2
  | .boiling => 3
  | .whirlpool => 4
  | .casting => 5
  | .cast => 6
  | .abandoned => 7

def gravityPolicyCode : GravityPolicy → Nat
  | .holdLast => 0
  | .pause => 1

def lagPolicyCode : LagPolicy → Nat
  | .pause => 0
  | .continue_ => 1

def missCauseCode : MissCause → Nat
  | .timeout => 0
  | .targetReached => 1
  | .noPoint => 2
  | .sendFull => 3
  | .halted => 4

def castStateCode : CastState → Nat
  | .opening => 0
  | .metering => 1
  | .paused => 2
  | .settling => 3
  | .charging => 4
  | .closed => 5

def endCauseCode : EndCause → Nat
  | .level => 0
  | .request => 1
  | .estop => 2
  | .abandon => 3
  | .vesselReset => 4
  | .power => 5

def pauseCauseCode : PauseCause → Nat
  | .gravityStale => 0
  | .pitchLag => 1
  | .dosingFailed => 2
  | .notAuto => 3

def dutySourceCode : DutySource → Nat
  | .metered => 0
  | .declared => 1

def tariffStateCode : TariffState → Nat
  | .none => 0
  | .activating => 1
  | .active => 2
  | .changing => 3

def mountStateCode : MountState → Nat
  | .unmounted => 0
  | .mounting => 1
  | .ready => 2

/-- The result codes of R172. -/
def resultCode : Result → Nat
  | .ok => 0
  | .badRequest => 1
  | .queueFull => 2
  | .busy => 3
  | .range => 4
  | .notFound => 5
  | .notHeld => 6
  | .notArmed => 7
  | .locked => 8
  | .notReady => 9
  | .tableFull => 10
  | .duplicate => 11
  | .vesselBusy => 12
  | .recipeInvalid => 13
  | .strainInvalid => 14
  | .journalFull => 15
  | .orphans => 16

/-- The event codes of R182. -/
def eventCode : EventKind → Nat
  | .authorityChanged => 1
  | .panelRefused => 2
  | .forgedOrigin => 3
  | .driveHeld => 4
  | .guardFull => 5
  | .heldDiscarded => 6
  | .heldExpired => 7
  | .brewState => 8
  | .stepBegun => 9
  | .stepDone => 10
  | .startRefused => 11
  | .boilBegun => 12
  | .additionDue => 13
  | .additionFired => 14
  | .additionMissed => 15
  | .boilDone => 16
  | .lowEvaporation => 17
  | .castOpened => 18
  | .castPaused => 19
  | .castResumed => 20
  | .meterRebased => 21
  | .castClosed => 22
  | .doseLate => 23
  | .doseTimeout => 24
  | .doseSequence => 25
  | .dutyCharged => 26
  | .periodClosed => 27
  | .journalBlockBad => 28

/-- The class of an event kind: true for ALARM (3.5, 4.2, 5.4, 5.5, 6.9, 7.11, 8.7, R151, R154, R161). -/
def isAlarm : EventKind → Bool
  | .authorityChanged => false
  | .panelRefused => true
  | .forgedOrigin => true
  | .driveHeld => false
  | .guardFull => true
  | .heldDiscarded => true
  | .heldExpired => true
  | .brewState => false
  | .stepBegun => false
  | .stepDone => false
  | .startRefused => true
  | .boilBegun => false
  | .additionDue => true
  | .additionFired => false
  | .additionMissed => true
  | .boilDone => false
  | .lowEvaporation => true
  | .castOpened => false
  | .castPaused => true
  | .castResumed => false
  | .meterRebased => true
  | .castClosed => false
  | .doseLate => false
  | .doseTimeout => true
  | .doseSequence => true
  | .dutyCharged => false
  | .periodClosed => false
  | .journalBlockBad => true

/-- Whether a kind's subject is a vessel: what a subject of none is sent as depends on it (R182). -/
def subjectIsVessel (k : EventKind) : Bool := eventCode k ≤ 17

/-- The subject of an event as it is sent (R182). -/
def subjectValue (k : EventKind) : Subject → Nat
  | .none => if subjectIsVessel k then 255 else 0
  | .vessel v => vesselNumber v
  | .cast n => n

/-- The argument of an event as it is sent (R182). -/
def argValue : EventArg → Nat
  | .num n => min n 4294967294
  | .absent => 4294967295
  | .noPoint => 4294967295

/-- The 15 bytes of an event in a REPORT EVENTS body (R182). -/
def eventBytes (e : Event) : List Byte :=
  num 4 e.time.toNat ++ num 1 (eventCode e.kind + if isAlarm e.kind then 128 else 0)
    ++ num 4 (subjectValue e.kind e.subject) ++ num 2 (e.brew.getD 0) ++ num 4 (argValue e.arg)

/-- A set of conditions as the 5-byte mask of R182. -/
def condMask (set : List Cond) : List Byte := num 5 (maskOf (allConds.map fun c => set.contains c))

end Sys2Proof.Machine
end

