-- ==== Sys2Proof/Machine/State.lean ====
section
/-! DEFINITION. The state of the part as plain data, the outcomes of a step, and the state after reset. -/

namespace Sys2Proof.Machine

/-- Why a step could fault. The spec names no state in which the part stops, so there is no reason: no
step faults (safe: nothing is cut short). -/
inductive Fault where
deriving DecidableEq, Repr

/-- Why a command could be refused. -/
inductive Refusal where
  /-- Raised by an arm of `exec` for a command that has no meaning yet (safe: nothing is claimed of it).
  Every command has its meaning, so no arm raises it. -/
  | notModelled (mnemonic : String)
deriving DecidableEq, Repr

/-- The levels of the input pins (00_scope.md, the table of lines). `true` is asserted. -/
structure Pins where
  address   : Byte
  reset     : Bool
  protect   : Bool
  powerFail : Bool
deriving DecidableEq, Repr

/-- The part's mode: held in reset with its address unread (R2), or one of the two modes of R3. -/
inductive Mode where
  | inReset | bypass | active
deriving DecidableEq, Repr

/-- The loadable tables, each a list of rows of cells (R174). -/
structure Tables where
  point      : List (List Cell)
  vessel     : List (List Cell)
  recipe     : List (List Cell)
  step       : List (List Cell)
  addition   : List (List Cell)
  line       : List (List Cell)
  correction : List (List Cell)
  strain     : List (List Cell)
  tariff     : List (List Cell)
deriving DecidableEq, Repr

/-- The Cast Meter: the cast record, the unsent pump demand (R120) and the CAST_CLOSE record kept after a
refusal (R125). -/
structure CastMeter where
  record     : Option Cast
  pumpUnsent : Option Nat
  keptClose  : Option Draft
deriving DecidableEq, Repr

/-- The state of the part (INVENTORY.md, State). `tells` are insertion-queue notices not yet delivered
to the Boil Unit and the Pitch Unit; `pending` are the commands that wait, first in, first out. -/
structure State where
  pins           : Pins
  mode           : Mode
  stationAddress : Byte
  relayOpen      : Bool
  loopTime       : LoopTime
  loop           : LoopPort
  tables         : Tables
  points         : List PointEntry
  vessels        : PerVessel VesselRec
  slots          : List (Option Hold)
  brews          : List (Option Brew)
  seqs           : PerVessel Sequencer
  boil           : BoilUnit
  castMeter      : CastMeter
  duty           : Duty
  journal        : Journal
  store          : Store
  agent          : Agent
  tells          : List Owner
  pending        : List Instr
deriving DecidableEq, Repr

/-- A table of `rows` rows of `fields` cells, every cell 0. -/
def zeroTable (rows fields : Nat) : List (List Cell) :=
  List.replicate rows (List.replicate fields 0)

/-- The tables after a full reset: every cell 0, so every row invalid (R18, R60, R71, R73, R95, R109, R110,
R127, R146). -/
def Tables.zero : Tables :=
  { point := zeroTable 128 9, vessel := zeroTable 4 11, recipe := zeroTable 16 14
    step := zeroTable 128 10, addition := zeroTable 64 5, line := zeroTable 1 11
    correction := zeroTable 32 2, strain := zeroTable 12 6, tariff := zeroTable 13 5 }

/-- The empty tariff image: every cell 0 (R146, R148). -/
def TariffImage.zero : TariffImage :=
  { allowance := 0, bandCount := 0, tierCount := 0
    bands := List.replicate 8 (0, 0), tiers := List.replicate 4 (0, 0) }

/-- The Loop Port after a full reset (R6, R11, R12, R14). -/
def LoopPort.cleared : LoopPort :=
  { rx := none, frameErrors := 0, linkDown := false, linkTimer := none, transit := [], queue := []
    port := .idle, congested := false, repeated := none }

/-- A vessel's records after a full reset (R34, R62). -/
def VesselRec.cleared : VesselRec :=
  { occupant := none, occupancy := .empty, authority := .auto, supervisorLock := false
    stepLock := false }

/-- A sequencer after a full reset (R75). -/
def Sequencer.cleared : Sequencer :=
  { state := .idle, list := none, position := none, phase := .begun
    causes := { hand := false, stale := false, link := false, power := false }
    blocked := none, setpoint := none, rampRemainder := 0, restClock := 0, holdElapsed := 0
    holdSince := none, integral := 0, dtBase := false, lastDemand := 0
    zeroForced := false, unsent := [], refreshTimer := none, noPoint := false, onTemperature := false }

/-- The Boil Unit after a full reset (R97). -/
def BoilUnit.cleared : BoilUnit :=
  { begun := false, clock := 0, cursor := 0, pending := none, confirmTimer := none, sendQueue := []
    outstanding := false, headRefused := false }

/-- The Duty Accountant after a full reset (R139, R148, R150). -/
def Duty.cleared : Duty :=
  { tariff := .none, active := .zero, activeSeq := 0, bankTouched := false
    account := { period := 1, casts := 0, dl := 0, cdl := 0, duty := 0, ytd := 0 }
    charges := [], closing := none }

/-- The Journal Port after a full reset, before its mount begins (R169). What only the mount fixes is at the model's
values: positions and cast count 0, no last close, no orphan (DESIGN CHOICE, log 21). -/
def Journal.cleared : Journal :=
  { mount := .unmounted, head := 0, tail := 0, reservations := 0, queue := [], consecutive := 0
    failed := false, castCount := 0, lastClose := none, orphans := [], unlisted := 0, op := .free
    turn := .record, reads := [], mountBlock := 0, mountGood := [], mountBad := [] }

/-- The Management Agent after a full reset (R170, R171, R174, R176, R177, R178, R180, R183). -/
def Agent.cleared : Agent :=
  { requests := [], deferred := [], window := none, writePtr := ⟨0, 0⟩, readPtr := ⟨0, 0⟩
    keptWrite := none, keptRead := none, conditions := [], acked := [], reported := []
    latched := [], events := [], shedding := false, reportTimer := none
    reportLimit := 50
    config := { supervisor := 0, fairness := 20, interval := 50 } }

/-- Every block at its full-reset values, held in reset with the address unread (R2, R3). The station address is 0
until it is read (DESIGN CHOICE, log 21). -/
def State.cleared (pins : Pins) (store : Store) (pending : List Instr) : State :=
  { pins := pins, mode := .inReset, stationAddress := 0, relayOpen := false, loopTime := 0
    loop := .cleared, tables := .zero, points := List.replicate 128 .empty
    vessels := .all .cleared, slots := List.replicate 4 none, brews := List.replicate 6 none
    seqs := .all .cleared, boil := .cleared
    castMeter := { record := none, pumpUnsent := none, keptClose := none }
    duty := .cleared, journal := .cleared, store := store, agent := .cleared, tells := []
    pending := pending }

/-- DESIGN CHOICE (log 1). The part right after power-on with its address pins reading 1, its other inputs
withdrawn and an erased journal store: ACTIVE, the relay open, the mount begun, JOURNAL_NOT_READY
present (R2, R3, R167, R177). -/
def State.reset : State :=
  let s := State.cleared { address := 1, reset := false, protect := false, powerFail := false } [] []
  { s with
    mode := .active
    stationAddress := 1
    relayOpen := true
    loop := { s.loop with linkTimer := some 0 }
    journal := { s.journal with mount := .mounting }
    agent := { s.agent with reportTimer := some 0, conditions := [.journalNotReady] } }

end Sys2Proof.Machine
end

