-- ==== Sys2Proof/Machine/Operands.lean ====
section
/-! DEFINITION. What the cells of the tables stand for (R174): typed views of the rows, and the lookups of
points, steps, additions and brews the blocks make. -/

namespace Sys2Proof.Machine

/-! ### Cells -/

/-- A cell of a table; a cell outside the table reads 0. -/
def cellAt (t : List (List Cell)) (row field : Nat) : Cell := (t.getD row []).getD field 0

/-- The table with one cell replaced. -/
def setCell (t : List (List Cell)) (row field : Nat) (c : Cell) : List (List Cell) :=
  t.set row ((t.getD row []).set field c)

/-- A cell's number. -/
def natCell (t : List (List Cell)) (row field : Nat) : Nat := (cellAt t row field).toNat

/-- A signed cell's number (R174). -/
def intCell (t : List (List Cell)) (row field : Nat) : Int := (cellAt t row field).toInt

/-- Whether the cell of a row at its VALID field is 1. -/
def validCell (t : List (List Cell)) (row field : Nat) : Bool := cellAt t row field == 1

/-- A point reference: a row number, or 255 for NONE (R174). -/
def pointRef (t : List (List Cell)) (row field : Nat) : Option Nat :=
  if natCell t row field = 255 then none else some (natCell t row field)

/-! ### Points -/

/-- The kind of a kind cell. -/
def pointKindOf : Nat → PointKind
  | 0 => .temperature
  | 1 => .gravity
  | 2 => .level
  | 3 => .flowCount
  | 4 => .heatDrive
  | 5 => .pumpDrive
  | 6 => .valveDrive
  | 7 => .doseDrive
  | 8 => .additionDrive
  | _ => .panel

/-- The binding of a binding cell (R174). -/
def bindingOf (n : Nat) : Binding :=
  match vesselOf n with
  | some v => .vessel v
  | none => if n = 4 then .line else .unbound

/-- The drive kinds (2.1). -/
def PointKind.isDrive : PointKind → Bool
  | .heatDrive | .pumpDrive | .valveDrive | .doseDrive | .additionDrive => true
  | .temperature | .gravity | .level | .flowCount | .panel => false

/-- The measured kinds (2.1). -/
def PointKind.isMeasured : PointKind → Bool
  | .temperature | .gravity | .level | .flowCount => true
  | .heatDrive | .pumpDrive | .valveDrive | .doseDrive | .additionDrive | .panel => false

/-- The fields of a Point Table row, valid or not. -/
def pointRow (t : Tables) (r : Nat) : PointRow :=
  { station := natCell t.point r 0, channel := natCell t.point r 1
    kind := pointKindOf (natCell t.point r 2), binding := bindingOf (natCell t.point r 3)
    gain := intCell t.point r 4, offset := intCell t.point r 5
    staleLimit := natCell t.point r 6, owned := cellAt t.point r 7 == 1 }

def pointValid (t : Tables) (r : Nat) : Bool := validCell t.point r 8

/-- The point of a row while the row is valid (R18). -/
def point? (t : Tables) (r : Nat) : Option PointRow :=
  if pointValid t r then some (pointRow t r) else none

/-- The valid row of a station and channel, whichever row number holds it (R18). -/
def findPoint (t : Tables) (station channel : Nat) : Option Nat :=
  (List.range 128).find? fun r =>
    pointValid t r && natCell t.point r 0 == station && natCell t.point r 1 == channel

/-- The entry of a Point Table row (2.4). -/
def entryOf (s : State) (r : Nat) : PointEntry := s.points.getD r .empty

/-- Whether an entry's value is fresh: present and not STALE (2.4). -/
def PointEntry.fresh (e : PointEntry) : Bool := e.current.isSome && e.quality != .stale

/-- Whether a row's point holds a fresh value. -/
def freshPoint (s : State) (r : Nat) : Bool := (entryOf s r).fresh

/-- A point's current value; 0 where it holds none, which the users of a value rule out first. -/
def valueOf (s : State) (r : Nat) : Int :=
  match (entryOf s r).current with
  | some x => x.value
  | none => 0

/-! ### Vessel Table -/

/-- The fields of a Vessel Table row but VALID (4.4). -/
structure VesselRow where
  pv         : Nat
  heat       : Option Nat
  level      : Nat
  emptyLevel : Nat
  panel      : Nat
  kp         : Nat
  ki         : Nat
  deadband   : Nat
  refresh    : Nat
  group      : Nat
deriving DecidableEq, Repr

def vesselRow (t : Tables) (v : Vessel) : VesselRow :=
  let r := vesselNumber v
  { pv := natCell t.vessel r 0, heat := pointRef t.vessel r 1, level := natCell t.vessel r 2
    emptyLevel := natCell t.vessel r 3, panel := natCell t.vessel r 4, kp := natCell t.vessel r 5
    ki := natCell t.vessel r 6, deadband := natCell t.vessel r 7, refresh := natCell t.vessel r 8
    group := natCell t.vessel r 9 }

def vesselValid (t : Tables) (v : Vessel) : Bool := validCell t.vessel (vesselNumber v) 10

/-- The heat point's row, while the vessel's row is valid and names one. -/
def heatRow? (t : Tables) (v : Vessel) : Option Nat :=
  if vesselValid t v then (vesselRow t v).heat else none

/-! ### Recipes and steps -/

/-- The fields of a Recipe Table row but VALID (5.1). `lists` are the (first step, step count) pairs. -/
structure RecipeRow where
  lists     : PerVessel (Nat × Nat)
  threshold : Nat
  target    : Nat
  firstAdd  : Nat
  addCount  : Nat
  minEvap   : Nat
deriving DecidableEq, Repr

def recipeRow (t : Tables) (r : Nat) : RecipeRow :=
  { lists := { mash := (natCell t.recipe r 0, natCell t.recipe r 1)
               lauter := (natCell t.recipe r 2, natCell t.recipe r 3)
               kettle := (natCell t.recipe r 4, natCell t.recipe r 5)
               whirlpool := (natCell t.recipe r 6, natCell t.recipe r 7) }
    threshold := natCell t.recipe r 8, target := natCell t.recipe r 9
    firstAdd := natCell t.recipe r 10, addCount := natCell t.recipe r 11
    minEvap := natCell t.recipe r 12 }

def recipeValid (t : Tables) (r : Nat) : Bool := validCell t.recipe r 13

/-- The fields of a Step Table row but VALID (5.2). -/
structure StepRow where
  kind      : StepKind
  target    : Int
  rate      : Nat
  tolerance : Nat
  hold      : Nat
  drive     : Option Nat
  value     : Nat
  route     : Option Nat
  lock      : Bool
deriving DecidableEq, Repr

def stepKindOf : Nat → StepKind
  | 0 => .hold
  | 1 => .ramp
  | 2 => .wait
  | 3 => .drive
  | 4 => .transfer
  | 5 => .boil
  | _ => .cast

def stepRow (t : Tables) (r : Nat) : StepRow :=
  { kind := stepKindOf (natCell t.step r 0), target := intCell t.step r 1
    rate := natCell t.step r 2, tolerance := natCell t.step r 3, hold := natCell t.step r 4
    drive := pointRef t.step r 5, value := natCell t.step r 6, route := pointRef t.step r 7
    lock := cellAt t.step r 8 == 1 }

def stepValid (t : Tables) (r : Nat) : Bool := validCell t.step r 9

/-- The Step Table row at a position of a vessel's list, passing from row 127 to row 0 (R71). -/
def listRow (t : Tables) (recipe : Nat) (v : Vessel) (pos : Nat) : Nat :=
  (((recipeRow t recipe).lists.get v).1 + pos) % 128

/-- How many positions a vessel's list has (R71). -/
def listCount (t : Tables) (recipe : Nat) (v : Vessel) : Nat := ((recipeRow t recipe).lists.get v).2

/-- The step at a position of the list a sequencer has loaded. -/
def stepAt (t : Tables) (v : Vessel) (q : Sequencer) (pos : Nat) : Option StepRow :=
  q.list.map fun recipe => stepRow t (listRow t recipe v pos)

/-- A sequencer's current step. -/
def currentStep (s : State) (v : Vessel) : Option StepRow :=
  let q := s.seqs.get v
  q.position.bind (stepAt s.tables v q)

/-- The kind of a sequencer's current step. -/
def currentKind (s : State) (v : Vessel) : Option StepKind := (currentStep s v).map StepRow.kind

/-! ### Additions, the line, corrections, strains -/

/-- The fields of an Addition Table row but VALID (6.1). -/
structure AdditionRow where
  mark     : Nat
  point    : Nat
  quantity : Nat
  confirm  : Bool
deriving DecidableEq, Repr

def additionRow (t : Tables) (r : Nat) : AdditionRow :=
  { mark := natCell t.addition r 0, point := natCell t.addition r 1
    quantity := natCell t.addition r 2, confirm := cellAt t.addition r 3 == 1 }

def additionValid (t : Tables) (r : Nat) : Bool := validCell t.addition r 4

/-- The Addition Table row at an index of a recipe's addition list, passing from row 63 to row 0 (R71). -/
def additionListRow (t : Tables) (recipe index : Nat) : Nat :=
  ((recipeRow t recipe).firstAdd + index) % 64

/-- The fields of the Line Table row but VALID (7.1). -/
structure LineRow where
  flow          : Nat
  temperature   : Nat
  gravity       : Nat
  pump          : Nat
  dose          : Nat
  k             : Nat
  maxPulses     : Nat
  settle        : Nat
  strokeTimeout : Nat
  failureLimit  : Nat
deriving DecidableEq, Repr

def lineRow (t : Tables) : LineRow :=
  { flow := natCell t.line 0 0, temperature := natCell t.line 0 1, gravity := natCell t.line 0 2
    pump := natCell t.line 0 3, dose := natCell t.line 0 4, k := natCell t.line 0 5
    maxPulses := natCell t.line 0 6, settle := natCell t.line 0 7
    strokeTimeout := natCell t.line 0 8, failureLimit := natCell t.line 0 9 }

def lineValid (t : Tables) : Bool := validCell t.line 0 10

/-- The correction factor f[i] (R110). -/
def factorAt (t : Tables) (i : Nat) : Int := (natCell t.correction i 0 : Int)

/-- Whether the Correction Table is fully valid (R110). -/
def correctionValid (t : Tables) : Bool := (List.range 32).all fun i => validCell t.correction i 1

/-- The fields of a Strain Table row but VALID (8.1). -/
structure StrainRow where
  rate          : Nat
  concentration : Nat
  viability     : Nat
  stroke        : Nat
  lagLimit      : Nat
deriving DecidableEq, Repr

def strainRow (t : Tables) (r : Nat) : StrainRow :=
  { rate := natCell t.strain r 0, concentration := natCell t.strain r 1
    viability := natCell t.strain r 2, stroke := natCell t.strain r 3
    lagLimit := natCell t.strain r 4 }

def strainValid (t : Tables) (r : Nat) : Bool := validCell t.strain r 5

/-! ### The pending bank -/

/-- Whether the pending bank is valid: the header's VALID stands for it (R146). -/
def bankValid (t : Tables) : Bool := validCell t.tariff 0 4

/-- The image of the pending bank (R149). -/
def bankImage (t : Tables) : TariffImage :=
  { allowance := natCell t.tariff 0 0, bandCount := natCell t.tariff 0 1
    tierCount := natCell t.tariff 0 2
    bands := (List.range 8).map fun i => (natCell t.tariff (1 + i) 0, natCell t.tariff (1 + i) 1)
    tiers := (List.range 4).map fun i => (natCell t.tariff (9 + i) 0, natCell t.tariff (9 + i) 1) }

/-! ### Brews -/

/-- The row of a brew number (R52). -/
def brewRow? (s : State) (number : Nat) : Option Nat :=
  s.brews.findIdx? fun b => b.any fun b => b.number == number

/-- The record of a brew number. -/
def brew? (s : State) (number : Nat) : Option Brew :=
  (brewRow? s number).bind fun r => s.brews.getD r none

/-- A vessel's occupant (R62). -/
def occupantOf (s : State) (v : Vessel) : Option Nat := (s.vessels.get v).occupant

/-- The record of a vessel's occupant. -/
def occupantBrew? (s : State) (v : Vessel) : Option Brew := (occupantOf s v).bind (brew? s)

/-- Whether a vessel is available as the target of BREW_ASSIGN or as a destination (R57, R63). -/
def available (s : State) (v : Vessel) : Bool :=
  (s.vessels.get v).occupancy == .empty && vesselValid s.tables v

/-! ### The cast -/

/-- Whether a cast is open: in any state from OPENING to CHARGING (chapter 7). -/
def castOpen (s : State) : Bool :=
  match s.castMeter.record with
  | some c => c.state != .closed
  | none => false

/-- Whether a cast state is METERING, PAUSED or SETTLING, those in which flow is metered (R116). -/
def CastState.meters : CastState → Bool
  | .metering | .paused | .settling => true
  | .opening | .charging | .closed => false

/-- Whether a cast state is one from OPENING to SETTLING (R129). -/
def CastState.pitches : CastState → Bool
  | .opening | .metering | .paused | .settling => true
  | .charging | .closed => false

end Sys2Proof.Machine
end

