-- ==== Sys2Proof/Machine/Ops.lean ====
section
/-! DEFINITION. The operations every block uses: loop time and timers, events (R180), the insertion queue and
the downstream arbiter (R14 to R17), replies and reports (R13, R170), the journal's room (R164), and
the updates of one vessel's, one brew's or one row's record. -/

namespace Sys2Proof.Machine

/-! ### Loop time (R21) -/

/-- The interval from `start` to `now`, modulo 2³². -/
def elapsed (now start : LoopTime) : Nat := (now - start).toNat

/-- Whether a running timer has reached its limit; a stopped timer never has. -/
def timerDue (now : LoopTime) (timer : Option LoopTime) (limit : Nat) : Bool :=
  match timer with
  | some start => decide (limit ≤ elapsed now start)
  | none => false

/-! ### Updates of one record -/

def withVessel (v : Vessel) (f : VesselRec → VesselRec) (s : State) : State :=
  { s with vessels := s.vessels.set v (f (s.vessels.get v)) }

def withSeq (v : Vessel) (f : Sequencer → Sequencer) (s : State) : State :=
  { s with seqs := s.seqs.set v (f (s.seqs.get v)) }

/-- Changes the record of a brew number, in whatever row holds it. -/
def withBrew (number : Nat) (f : Brew → Brew) (s : State) : State :=
  { s with brews := s.brews.map fun b => b.map fun b => if b.number = number then f b else b }

def withEntry (row : Nat) (f : PointEntry → PointEntry) (s : State) : State :=
  { s with points := s.points.set row (f (entryOf s row)) }

def withBoil (f : BoilUnit → BoilUnit) (s : State) : State := { s with boil := f s.boil }

def withCast (f : Cast → Cast) (s : State) : State :=
  { s with castMeter := { s.castMeter with record := s.castMeter.record.map f } }

def withPitch (f : PitchPart → PitchPart) (s : State) : State :=
  withCast (fun c => { c with pitch := c.pitch.map f }) s

def withJournal (f : Journal → Journal) (s : State) : State := { s with journal := f s.journal }

def withDuty (f : Duty → Duty) (s : State) : State := { s with duty := f s.duty }

def withAgent (f : Agent → Agent) (s : State) : State := { s with agent := f s.agent }

def withLoop (f : LoopPort → LoopPort) (s : State) : State := { s with loop := f s.loop }

/-- A count raised by one that stops at its maximum (Conventions). -/
def saturate (maximum n : Nat) : Nat := min maximum (n + 1)

/-! ### Latched conditions and events -/

/-- The cause of a latched condition occurs (R177). -/
def latch (c : Cond) (s : State) : State :=
  withAgent (fun a => if c ∈ a.latched then a else { a with latched := a.latched ++ [c] }) s

/-- An event joins the tail of the event queue, is shed, or overflows (R180). -/
def raise (kind : EventKind) (subject : Subject) (brew : Option Nat) (arg : EventArg) (s : State) :
    State :=
  let full := decide (64 ≤ s.agent.events.length)
  let shed := s.agent.shedding && !isAlarm kind
  if full || shed then
    let s := if full then latch .eventOverflow s else s
    if shed then latch .eventShed s else s
  else
    withAgent (fun a =>
      { a with
        events := a.events ++ [{ time := s.loopTime, kind := kind, subject := subject, brew := brew
                                 arg := arg }]
        shedding := a.shedding || decide (48 ≤ a.events.length + 1) }) s

/-- An event that names a vessel and its occupant. -/
def raiseVessel (kind : EventKind) (v : Vessel) (arg : EventArg) (s : State) : State :=
  raise kind (.vessel v) (occupantOf s v) arg s

/-- An event that names the cast and its brew, or none without a cast record (8.7). -/
def raiseCast (kind : EventKind) (arg : EventArg) (s : State) : State :=
  match s.castMeter.record with
  | some c => raise kind (.cast c.number) (some c.brew) arg s
  | none => raise kind .none none arg s

/-! ### The insertion queue and the arbiter (R14 to R17) -/

/-- The insertion queue tells the offering block that its frame has left or was replaced. Only the Boil
Unit and the Pitch Unit act on it (R103, R132). -/
def tellLeft (o : Owner) (s : State) : State :=
  match o with
  | .boilUnit => { s with tells := s.tells ++ [o] }
  | .pitchUnit _ => { s with tells := s.tells ++ [o] }
  | .agent | .guardUnit | .sequencer _ | .castMeter => s

/-- The head insertion frame leaves the queue as its sending begins; with 16 frames or fewer left,
EGRESS_CONGESTED goes (R14, R16). -/
def beginInsertion (q : Insertion) (rest : List Insertion) (s : State) : State :=
  withLoop (fun l =>
    { l with
      queue := rest
      port := .sendingInsertion q.frame
      congested := l.congested && decide (16 < rest.length) }) s

/-- The arbiter's choice (R17): when the downstream port is free and a frame waits, the next frame begins. -/
def startNext (s : State) : State :=
  match s.loop.port with
  | .sendingTransit => s
  | .sendingInsertion _ => s
  | .idle =>
    match s.loop.transit, s.loop.queue with
    | [], [] => s
    | _ :: _, [] => withLoop (fun l => { l with port := .sendingTransit }) s
    | [], q :: rest => tellLeft q.owner (beginInsertion q rest s)
    | [_], q :: rest =>
      if s.agent.config.fairness ≤ elapsed s.loopTime q.entry then
        tellLeft q.owner (beginInsertion q rest s)
      else withLoop (fun l => { l with port := .sendingTransit }) s
    | _ :: _ :: _, _ :: _ => withLoop (fun l => { l with port := .sendingTransit }) s

/-- Whether two frames are DRIVE frames for one destination point (R15). -/
def samePoint (f g : Frame) : Bool :=
  f.kind == kindDrive && g.kind == kindDrive && f.dest == g.dest
    && f.payload.head? == g.payload.head?

/-- The queue with the queued DRIVE for the frame's point replaced in place, keeping its position and entry
time, and the block that had offered the replaced frame (R15). -/
def replaceDrive (f : Frame) (o : Owner) : List Insertion → Option (List Insertion × Owner)
  | [] => none
  | q :: rest =>
    if samePoint f q.frame then some ({ q with frame := f, owner := o } :: rest, q.owner)
    else (replaceDrive f o rest).map fun r => (q :: r.1, r.2)

/-- Whether a frame is a REPORT EVENTS frame (1.3). -/
def isEventsFrame (f : Frame) : Bool := f.kind == kindReport && f.payload.head? == some 2

/-- The queue without its oldest REPORT EVENTS frame, if it holds one (R16). -/
def displaceEvents : List Insertion → Option (List Insertion)
  | [] => none
  | q :: rest => if isEventsFrame q.frame then some rest else (displaceEvents rest).map (q :: ·)

/-- A frame takes a new position at the tail (R14). With the port sending IDLE and nothing else waiting, its
sending begins at once (R17). -/
def enterQueue (f : Frame) (o : Owner) (s : State) : OfferResult × State :=
  let q : Insertion := { frame := f, entry := s.loopTime, owner := o }
  if s.loop.port = .idle ∧ s.loop.transit = [] ∧ s.loop.queue = [] then
    (.begun, beginInsertion q [] s)
  else (.queued, startNext (withLoop (fun l => { l with queue := l.queue ++ [q] }) s))

/-- An offer to the insertion queue (R14 to R16): the frame's check is computed as it enters (R13). -/
def offer (f : Frame) (o : Owner) (s : State) : OfferResult × State :=
  let f := f.sealed
  match replaceDrive f o s.loop.queue with
  | some (queue, old) => (.queued, tellLeft old (withLoop (fun l => { l with queue := queue }) s))
  | none =>
    if s.loop.queue.length < 32 then enterQueue f o s
    else if f.kind = kindDrive then
      match displaceEvents s.loop.queue with
      | some queue =>
        enterQueue f o (latch .eventOverflow (withLoop (fun l => { l with queue := queue }) s))
      | none => (.refused, s)
    else (.refused, withLoop (fun l => { l with congested := true }) s)

/-! ### Frames the part originates (R13) -/

/-- A DRIVE of origin OWN to a point. -/
def driveFrame (s : State) (p : PointRow) (demand : Nat) : Frame :=
  { kind := kindDrive, dest := BitVec.ofNat 8 p.station, source := s.stationAddress, hop := 0
    tag := 0, payload := num 1 p.channel ++ num 1 0 ++ num 2 demand, check := 0 }

/-- Offers a DRIVE to the point of a row, read as it now stands (R74, R96): no frame is built when the row
is not valid. -/
def offerDrive (row demand : Nat) (o : Owner) (s : State) : OfferResult × State :=
  match point? s.tables row with
  | some p => offer (driveFrame s p demand) o s
  | none => (.noPoint, s)

/-- A REPLY: request code, result, then the request's data (1.3, R170). -/
def replyFrame (s : State) (dest tag : Byte) (code : Byte) (r : Result) (data : List Byte) : Frame :=
  { kind := kindReply, dest := dest, source := s.stationAddress, hop := 0, tag := tag
    payload := code :: (num 1 (resultCode r) ++ data), check := 0 }

/-- Offers a REPLY to the station and tag of a request. -/
def reply (dest tag code : Byte) (r : Result) (data : List Byte) (s : State) : OfferResult × State :=
  offer (replyFrame s dest tag code r data) .agent s

/-- A REPORT to the supervisor station address: report kind 1 ATTENTION or 2 EVENTS, then its body. -/
def reportFrame (s : State) (kind : Byte) (body : List Byte) : Frame :=
  { kind := kindReport, dest := BitVec.ofNat 8 s.agent.config.supervisor, source := s.stationAddress
    hop := 0, tag := 0, payload := kind :: body, check := 0 }

/-! ### The journal's room and its blocks -/

/-- The number of unreleased positions (R158). -/
def unreleasedCount (j : Journal) : Nat := (j.head - j.tail).toNat

/-- The free room of the journal (R164). -/
def freeRoom (j : Journal) : Nat := 4096 - unreleasedCount j - j.reservations

/-- Whether a position is unreleased (R158). -/
def isUnreleased (j : Journal) (q : Seq) : Bool := decide ((q - j.tail).toNat < unreleasedCount j)

/-- Whether sequence `a` is later than `b` (R158). -/
def laterSeq (a b : Seq) : Bool := decide (1 ≤ (a - b).toNat ∧ (a - b).toNat < 2 ^ 31)

/-- The block a sequence number occupies (R158). -/
def blockOf (q : Seq) : Nat := q.toNat % 4096

/-- An erased block: 512 bytes of all ones (10.1). -/
def erasedBlock : List Byte := List.replicate 512 0xFF

/-- What a block of the store holds; an unlisted block is erased (log 7). -/
def storeRead : Store → Nat → List Byte
  | [], _ => erasedBlock
  | (b, bytes) :: rest, n => if b = n then bytes else storeRead rest n

/-- The store with one block's contents replaced, in the canonical form: block numbers strictly rising, no
erased block listed. -/
def storeWrite (n : Nat) (bytes : List Byte) : Store → Store
  | [] => if bytes = erasedBlock then [] else [(n, bytes)]
  | (b, old) :: rest =>
    if n < b then (if bytes = erasedBlock then (b, old) :: rest else (n, bytes) :: (b, old) :: rest)
    else if n = b then (if bytes = erasedBlock then rest else (n, bytes) :: rest)
    else (b, old) :: storeWrite n bytes rest

/-- The canonical form of the store. -/
def storeWf : Store → Bool
  | [] => true
  | [(_, bytes)] => bytes.length == 512 && bytes != erasedBlock
  | (b, bytes) :: (c, more) :: rest =>
    bytes.length == 512 && bytes != erasedBlock && decide (b < c) && storeWf ((c, more) :: rest)

/-- 512 bytes of an answer: bytes past 512 are no part of a block, missing ones read as all ones. -/
def fitBlock (bytes : List Byte) : List Byte := (bytes ++ erasedBlock).take 512

/-- A read of a block: the bytes the store answers, and the store, which holds them from then on. -/
def readBlock (n : Nat) (answer : StoreAnswer) (st : Store) : List Byte × Store :=
  match answer with
  | .asHeld => (storeRead st n, st)
  | .bytes b => (fitBlock b, storeWrite n (fitBlock b) st)

end Sys2Proof.Machine
end

