-- ==== Sys2Proof/Machine/Flags.lean ====
section
/-! DEFINITION. The condition set: the cause of each condition, the condition set kept equal to the causes,
the ATTENTION report of a condition that joins, and the alert line (R177, R178). -/

namespace Sys2Proof.Machine

/-- PV_STALE: the vessel is not EMPTY and its temperature point is not fresh (R31). -/
def pvStaleCause (s : State) (v : Vessel) : Bool :=
  (s.vessels.get v).occupancy != .empty && !freshPoint s (vesselRow s.tables v).pv

/-- HELD: a slot holds a frame for the vessel (R45). -/
def heldCause (s : State) (v : Vessel) : Bool :=
  s.slots.any fun h => h.any fun h => h.vessel == v

/-- Whether the cast is METERING, PAUSED or SETTLING and its record satisfies `p`. -/
def castMeters (s : State) (p : Cast → Bool) : Bool :=
  s.castMeter.record.any fun c => c.state.meters && p c

/-- The cause of each condition in ACTIVE mode (11.3 and the rule of each owner). -/
def condCause (s : State) : Cond → Bool
  | .pvStale v => pvStaleCause s v
  | .suspended v => (s.seqs.get v).state == .suspended
  | .blocked v => (s.seqs.get v).blocked.isSome
  | .held v => heldCause s v
  | .gravityHeld => castMeters s fun _ => !freshPoint s (lineRow s.tables).gravity
  | .meterFault => castMeters s fun c =>
      !freshPoint s (lineRow s.tables).temperature || !freshPoint s (lineRow s.tables).flow
        || c.rebasePending
  | .pitchLag => castMeters s fun c => c.pitch.any PitchPart.pitchLag
  | .dosingFailed =>
      s.castMeter.record.any fun c => c.state.pitches && c.pitch.any PitchPart.dosingFailed
  | .linkDown => s.loop.linkDown
  | .egressCongested => s.loop.congested
  | .journalNotReady => s.journal.mount != .ready
  | .journalFailed => s.journal.failed
  | .journalProtected => s.pins.protect
  | .journalNearFull => s.journal.mount == .ready && decide (freeRoom s.journal < 410)
  | .orphansPresent =>
      s.journal.mount == .ready && (!s.journal.orphans.isEmpty || decide (0 < s.journal.unlisted))
  | .tariffPending => bankValid s.tables
  | .powerWarning => s.pins.powerFail
  | .frameErrors => s.agent.latched.contains .frameErrors
  | .tableReject => s.agent.latched.contains .tableReject
  | .eventShed => s.agent.latched.contains .eventShed
  | .eventOverflow => s.agent.latched.contains .eventOverflow
  | .journalDamaged => s.agent.latched.contains .journalDamaged
  | .orphanOverflow => s.agent.latched.contains .orphanOverflow

/-- A set of conditions with one more member, in the order of 11.3. -/
def insertCond (c : Cond) (set : List Cond) : List Cond :=
  allConds.filter fun x => x == c || set.contains x

/-- The union of two sets of conditions, in the order of 11.3. -/
def unionConds (a b : List Cond) : List Cond := allConds.filter fun x => a.contains x || b.contains x

/-- An ATTENTION offer (R178): with a supervisor station address, a report naming every member of the
condition set; when the insertion queue takes it, they all join the reported set. -/
def attention (s : State) : State :=
  if s.agent.config.supervisor = 0 then s
  else
    let (r, t) := offer (reportFrame s 1 (condMask s.agent.conditions)) .agent s
    if r.taken then
      withAgent (fun a => { a with reported := unionConds a.reported a.conditions }) t
    else t

/-- A condition joins the condition set. It is then in neither the acknowledged nor the reported set, since
it left both with the condition set, so an ATTENTION is offered (R178). -/
def joinCond (c : Cond) (s : State) : State :=
  let s := withAgent (fun a => { a with conditions := insertCond c a.conditions }) s
  if s.agent.acked.contains c || s.agent.reported.contains c then s else attention s

/-- The conditions whose causes have ended leave the condition set, and with it the acknowledged and the
reported set (R177, R178). -/
def leaveConds (s : State) : State :=
  let now := s.agent.conditions.filter (condCause s)
  withAgent (fun a =>
    { a with
      conditions := now
      acked := a.acked.filter now.contains
      reported := a.reported.filter now.contains }) s

/-- Joins a condition whose cause holds and that is not yet a member. -/
def joinIfCaused (s : State) (c : Cond) : State :=
  if condCause s c && !s.agent.conditions.contains c then joinCond c s else s

/-- The condition set is brought to the causes (R177): members whose causes have ended leave, then those
whose causes hold join one by one in the order of 11.3. EGRESS_CONGESTED is tried once more at the end,
since a refused ATTENTION raises it (R16). -/
def syncConditions (s : State) : State :=
  if s.mode = .active then
    joinIfCaused (allConds.foldl joinIfCaused (leaveConds s)) .egressCongested
  else s

/-- Whether the alert line is asserted: the condition set holds a member not acknowledged (R178). -/
def alertAsserted (s : State) : Bool :=
  s.agent.conditions.any fun c => !s.agent.acked.contains c

end Sys2Proof.Machine
end

