-- ==== Sys2Proof/Machine/Points.lean ====
section
/-! DEFINITION. The Sample Unit: scaling, and what an accepted sample, a BAD sample and a stale expiry do to a
point's entry (chapter 2). -/

namespace Sys2Proof.Machine

/-- The range of a scaled kind (R24). -/
def kindRange : PointKind → Int × Int
  | .temperature => (-5000, 15000)
  | .gravity => (0, 40000)
  | .level => (0, 500000)
  | .flowCount | .heatDrive | .pumpDrive | .valveDrive | .doseDrive | .additionDrive | .panel => (0, 0)

/-- clamp(x, lo, hi) (Conventions). -/
def clampInt (x lo hi : Int) : Int := max lo (min x hi)

/-- The engineering value of a raw value before its range is applied (R24): the quotient is rounded toward
negative infinity. -/
def scaleRaw (p : PointRow) (raw : Int) : Int := p.offset + raw * p.gain / 65536

/-- What an item gives its point: nothing (ignored), or a value and whether it was clamped (R22, R24, R25). -/
def itemValue (p : PointRow) (i : SampleItem) : Option (Int × Bool) :=
  match p.kind, i.format with
  | .flowCount, .count => some (i.raw, false)
  | .flowCount, .short | .flowCount, .long => none
  | .temperature, .count | .gravity, .count | .level, .count => none
  | .temperature, .short | .temperature, .long | .gravity, .short | .gravity, .long
  | .level, .short | .level, .long =>
    let x := scaleRaw p i.raw
    let (lo, hi) := kindRange p.kind
    some (clampInt x lo hi, decide (x < lo ∨ hi < x))
  | .heatDrive, _ | .pumpDrive, _ | .valveDrive, _ | .doseDrive, _ | .additionDrive, _ | .panel, _ => none

/-- The entry after an accepted sample (R26). -/
def PointEntry.accept (e : PointEntry) (value : Int) (clamped : Bool) (q : Quality) (now : LoopTime) :
    PointEntry :=
  { current := some ⟨value, now⟩
    quality := q
    clamped := clamped
    previous := if e.quality = .stale then none else e.current
    staleTimer := some now }

/-- The entry after a taken BAD sample (R27). -/
def PointEntry.acceptBad (e : PointEntry) : PointEntry :=
  if e.quality = .stale then e else { e with quality := .bad }

/-- The entry after its stale expiry (R28). -/
def PointEntry.expire (e : PointEntry) : PointEntry := { e with quality := .stale, staleTimer := none }

/-- The interval from an entry's previous time to its time, when both are present (R85). -/
def PointEntry.interval (e : PointEntry) : Option Nat :=
  match e.current, e.previous with
  | some c, some p => some (elapsed c.time p.time)
  | _, _ => none

end Sys2Proof.Machine
end

