-- ==== Sys2Proof/Machine/Guard.lean ====
section
/-! DEFINITION. The hold slots of the Authority and Guard Unit: taking a frame into a slot, emptying slots whose
context goes away, and the guard decision (3.3, 3.4). -/

namespace Sys2Proof.Machine

/-- The owning vessel of a binding: the vessel it names, the whirlpool for LINE, none for NONE (R43, R44). -/
def owningVessel : Binding → Option Vessel
  | .vessel v => some v
  | .line => some .whirlpool
  | .unbound => none

/-- The frame of a slot, if it holds one. -/
def slotHold (s : State) (slot : Nat) : Option Hold := s.slots.getD slot none

/-- A slot is freed and its frame lost. -/
def freeSlot (slot : Nat) (s : State) : State := { s with slots := s.slots.set slot none }

/-- One slot is emptied, with HELD_DISCARDED, if it holds a frame whose context has gone (R49). -/
def emptySlot (p : Hold → Bool) (s : State) (slot : Nat) : State :=
  match slotHold s slot with
  | some h =>
    if p h then raiseVessel .heldDiscarded h.vessel (.num slot) (freeSlot slot s) else s
  | none => s

/-- Every slot whose frame satisfies `p` is emptied (R49), in slot order (DESIGN CHOICE, log 42). -/
def emptySlots (p : Hold → Bool) (s : State) : State := [0, 1, 2, 3].foldl (emptySlot p) s

/-- The sequencer tells the unit that a step has ended (R49). -/
def slotsAtStepEnd (v : Vessel) (pos : Nat) (s : State) : State :=
  emptySlots (fun h => h.vessel == v && h.step == some pos) s

/-- The sequencer tells the unit that a step begins (R49). -/
def slotsAtStepBegin (v : Vessel) (s : State) : State :=
  emptySlots (fun h => h.vessel == v && h.step == none) s

/-- Every slot holding for a vessel is emptied: a change to HAND, or a VESSEL_START taken (R49). -/
def slotsOfVessel (v : Vessel) (s : State) : State := emptySlots (fun h => h.vessel == v) s

/-- The guard's decision on a passing DRIVE (R43, R44). -/
inductive GuardDecision where
  | forward
  | forged (vessel : Option Vessel)
  | refuse (vessel : Vessel) (row : Nat)
  | hold (vessel : Vessel) (row : Nat)
deriving DecidableEq, Repr

/-- The origin byte of a DRIVE (1.3): 0 OWN, 1 SUPERVISOR, 2 PANEL. -/
def driveOrigin (f : Frame) : Nat := (f.payload.getD 1 0).toNat

/-- The demand of a DRIVE (1.3). -/
def driveDemand (f : Frame) : Nat := natOf ((f.payload.drop 2).take 2)

/-- The valid row of a DRIVE's destination point (R18). -/
def driveRow (s : State) (f : Frame) : Option Nat :=
  findPoint s.tables f.dest.toNat (f.payload.getD 0 0).toNat

/-- The guard decision: forged origin before any other test (R43), then the first row that applies of the
table of R44. The locks are not consulted (R36). -/
def guardDecision (s : State) (f : Frame) : GuardDecision :=
  let row := driveRow s f
  if driveOrigin f = 0 then
    .forged (row.bind fun r => owningVessel (pointRow s.tables r).binding)
  else
    match row with
    | none => .forward
    | some r =>
      let p := pointRow s.tables r
      if p.kind.isDrive && p.owned then
        match owningVessel p.binding with
        | none => .forward
        | some v =>
          if (s.vessels.get v).authority = .hand then .forward
          else if driveOrigin f = 2 then .refuse v r else .hold v r
      else .forward

/-- The lowest free slot. -/
def freeSlotNumber (s : State) : Option Nat := [0, 1, 2, 3].find? fun i => (slotHold s i).isNone

/-- A frame decided for hold takes the lowest free slot, or is dropped with GUARD_FULL (R45). -/
def holdFrame (f : Frame) (v : Vessel) (row : Nat) (s : State) : State :=
  match freeSlotNumber s with
  | some i =>
    let h : Hold := { frame := f, point := row, vessel := v, step := (s.seqs.get v).position
                      time := s.loopTime }
    raiseVessel .driveHeld v (.num i) { s with slots := s.slots.set i (some h) }
  | none => raiseVessel .guardFull v (.num row) s

end Sys2Proof.Machine
end

