-- ==== Sys2Proof/Machine/Records.lean ====
section
/-! DEFINITION. Journal records as the 512 bytes of a block, and the classes and contents of a block read back
(10.1, R157, R159, R172). -/

namespace Sys2Proof.Machine

/-! ### Writing the fields -/

/-- A tariff bank image (10.1, 9.4). -/
def imageBytes (i : TariffImage) : List Byte :=
  num 3 i.allowance ++ num 1 i.bandCount ++ num 1 i.tierCount
    ++ i.bands.flatMap (fun b => num 2 b.1 ++ num 3 b.2)
    ++ i.tiers.flatMap (fun t => num 4 t.1 ++ num 3 t.2)

/-- The duty part (9.2). -/
def dutyBytes (d : DutyPart) : List Byte :=
  num 4 d.tariffSeq.toNat ++ num 1 (dutySourceCode d.source) ++ num 7 d.v20mL ++ num 2 d.gm ++ num 8 d.dl
    ++ num 3 d.allowance ++ num 8 d.a ++ num 8 d.cdl ++ num 1 d.band ++ num 3 d.rate
    ++ num 1 (maskOf [d.aboveBands]) ++ num 8 d.baseY
    ++ listField (fun p => num 1 p.tier ++ num 8 p.q ++ num 8 p.gross ++ num 8 p.relief ++ num 8 p.net)
        d.portions
    ++ num 8 d.n ++ num 8 d.d

/-- The pitch part (8.2). -/
def pitchBytes (p : PitchPart) : List Byte :=
  num 1 p.strain ++ num 2 p.rate ++ num 8 p.target ++ num 8 p.issued ++ num 8 p.confirmed
    ++ num 8 p.unconfirmed ++ num 1 p.outstanding.toNat ++ num 1 p.consecutive ++ num 2 p.late
    ++ num 2 p.sequence ++ num 1 (firstIfSet p.frameQueued) ++ num 1 (firstIfSet p.unsent)
    ++ num 1 (firstIfSet p.strokeTimer.isSome)
    ++ num 1 (maskOf [p.pitchLag, p.lagged, p.dosingFailed]) ++ optional (num 8) p.deficit

/-- The mask of the cast flags (7.3). -/
def castFlagMask (f : CastFlags) : Nat :=
  maskOf [f.gravityHeld, f.meterRebased, f.interrupted, f.levelEnd, f.requestEnd]

/-- The body fields of a record (10.1), coded in the order given. -/
def bodyBytes : Body → List Byte
  | .tariff i => imageBytes i
  | .castOpen b =>
    num 4 b.cast ++ num 1 b.fermenter ++ num 4 b.opened.toNat ++ num 4 b.tariffSeq.toNat ++ num 1 b.strain
      ++ num 2 b.rate ++ num 1 (gravityPolicyCode b.gravity) ++ num 1 (lagPolicyCode b.lag)
  | .castClose c =>
    num 4 c.number ++ num 1 c.fermenter ++ num 4 c.opened.toNat ++ num 4 ((c.closed.getD 0).toNat)
      ++ num 1 ((c.endCause.map endCauseCode).getD 0) ++ num 1 (castFlagMask c.flags) ++ num 8 c.v20
      ++ num 3 c.r ++ num 8 c.gv ++ num 8 c.lineVolume ++ num 2 c.rebases ++ num 2 c.pauseCount
      ++ optional pitchBytes c.pitch ++ (c.duty.map dutyBytes).getD []
  | .castSettled b => num 4 b.cast ++ num 1 b.fermenter ++ num 4 b.openSeq.toNat ++ dutyBytes b.duty
  | .periodClose b =>
    num 2 b.period ++ num 4 b.casts ++ num 8 b.dl ++ num 8 b.cdl ++ num 8 b.duty ++ num 8 b.ytd
      ++ num 1 b.yearEnd.toNat ++ num 4 b.castCount
  | .release b =>
    num 4 b.releasedTo.toNat ++ num 4 b.close.seq.toNat ++ num 2 b.close.period ++ num 8 b.close.ytd
      ++ num 1 b.close.yearEnd.toNat ++ num 4 b.castCount
      ++ optional (fun q : Seq => num 4 q.toNat) b.tariffSeq ++ imageBytes b.tariff

/-- The record kind codes (10.1). -/
def bodyKind : Body → Nat
  | .tariff _ => 1
  | .castOpen _ => 2
  | .castClose _ => 3
  | .castSettled _ => 4
  | .periodClose _ => 5
  | .release _ => 6

/-! ### The check word -/

/-- The XOR of the sixteen-bit words of a run of bytes, high byte first (R157). -/
def xorWords : List Byte → BitVec 16
  | a :: b :: rest => (a.setWidth 16 <<< 8 ||| b.setWidth 16) ^^^ xorWords rest
  | [a] => a.setWidth 16 <<< 8
  | [] => 0

/-- A word as two bytes, high byte first. -/
def wordBytes (w : BitVec 16) : List Byte := [(w >>> 8).setWidth 8, w.setWidth 8]

/-- The first 508 bytes of a block: header and body, the bytes after the last field 0 (10.1). -/
def blockHead (q : Seq) (d : Draft) : List Byte :=
  num 4 q.toNat ++ num 1 (bodyKind d.body) ++ num 1 d.skip ++ num 2 d.brew ++ num 2 d.period
    ++ (bodyBytes d.body ++ List.replicate 498 0).take 498

/-- The 512 bytes of a record at a position: the check word and its copy end it (10.1). -/
def blockBytes (q : Seq) (d : Draft) : List Byte :=
  let head := blockHead q d
  let check := wordBytes (~~~ (xorWords head))
  head ++ check ++ check

/-! ### Reading the fields -/

/-- A number of `w` bytes and the bytes after it. -/
def readNum (w : Nat) (bs : List Byte) : Nat × List Byte := (natOf (bs.take w), bs.drop w)

/-- A coded byte 0 to `last`; a byte that names nothing is free (log 10). -/
def readCode (last : Nat) (bs : List Byte) : Nat × List Byte :=
  let c := (bs.getD 0 0).toNat
  (if c ≤ last then c else (Config.foreignCode last c).val, bs.drop 1)

/-- An optional field (R172). -/
def readOptional {α : Type} (f : List Byte → α × List Byte) (bs : List Byte) : Option α × List Byte :=
  match readCode 1 bs with
  | (0, rest) => (none, rest)
  | (_, rest) => let (a, rest) := f rest; (some a, rest)

/-- `n` entries one after another. -/
def readMany {α : Type} (f : List Byte → α × List Byte) : Nat → List Byte → List α × List Byte
  | 0, bs => ([], bs)
  | n + 1, bs =>
    let (a, bs) := f bs
    let (as, bs) := readMany f n bs
    (a :: as, bs)

def readSeq (bs : List Byte) : Seq × List Byte :=
  let (n, bs) := readNum 4 bs
  (BitVec.ofNat 32 n, bs)

/-- A pair of numbers of `a` and `b` bytes. -/
def readPair (a b : Nat) (bs : List Byte) : (Nat × Nat) × List Byte :=
  let (x, bs) := readNum a bs
  let (y, bs) := readNum b bs
  ((x, y), bs)

def readImage (bs : List Byte) : TariffImage × List Byte :=
  let (allowance, bs) := readNum 3 bs
  let (bandCount, bs) := readNum 1 bs
  let (tierCount, bs) := readNum 1 bs
  let (bands, bs) := readMany (readPair 2 3) 8 bs
  let (tiers, bs) := readMany (readPair 4 3) 4 bs
  ({ allowance := allowance, bandCount := bandCount, tierCount := tierCount, bands := bands
     tiers := tiers }, bs)

def readPortion (bs : List Byte) : Portion × List Byte :=
  let (tier, bs) := readNum 1 bs
  let (q, bs) := readNum 8 bs
  let (gross, bs) := readNum 8 bs
  let (relief, bs) := readNum 8 bs
  let (net, bs) := readNum 8 bs
  ({ tier := tier, q := q, gross := gross, relief := relief, net := net }, bs)

def readDuty (bs : List Byte) : DutyPart × List Byte :=
  let (tariffSeq, bs) := readSeq bs
  let (source, bs) := readCode 1 bs
  let (v20mL, bs) := readNum 7 bs
  let (gm, bs) := readNum 2 bs
  let (dl, bs) := readNum 8 bs
  let (allowance, bs) := readNum 3 bs
  let (a, bs) := readNum 8 bs
  let (cdl, bs) := readNum 8 bs
  let (band, bs) := readNum 1 bs
  let (rate, bs) := readNum 3 bs
  let (flags, bs) := readNum 1 bs
  let (baseY, bs) := readNum 8 bs
  let (count, bs) := readCode 4 bs
  let (portions, bs) := readMany readPortion count bs
  let (n, bs) := readNum 8 bs
  let (d, bs) := readNum 8 bs
  ({ tariffSeq := tariffSeq, source := if source = 0 then .metered else .declared, v20mL := v20mL
     gm := gm, dl := dl, allowance := allowance, a := a, cdl := cdl, band := band, rate := rate
     aboveBands := flags.testBit 0, baseY := baseY, portions := portions, n := n, d := d }, bs)

def readPitch (bs : List Byte) : PitchPart × List Byte :=
  let (strain, bs) := readNum 1 bs
  let (rate, bs) := readNum 2 bs
  let (target, bs) := readNum 8 bs
  let (issued, bs) := readNum 8 bs
  let (confirmed, bs) := readNum 8 bs
  let (unconfirmed, bs) := readNum 8 bs
  let (outstanding, bs) := readCode 1 bs
  let (consecutive, bs) := readNum 1 bs
  let (late, bs) := readNum 2 bs
  let (sequence, bs) := readNum 2 bs
  let (frameQueued, bs) := readCode 1 bs
  let (unsent, bs) := readCode 1 bs
  let (_, bs) := readCode 1 bs
  let (flags, bs) := readNum 1 bs
  let (deficit, bs) := readOptional (readNum 8) bs
  ({ strain := strain, rate := rate, target := target, issued := issued, confirmed := confirmed
     unconfirmed := unconfirmed, outstanding := outstanding == 1, consecutive := consecutive
     late := late, sequence := sequence, frameQueued := frameQueued == 0, unsent := unsent == 0
     strokeTimer := none, pitchLag := flags.testBit 0, lagged := flags.testBit 1
     dosingFailed := flags.testBit 2, deficit := deficit }, bs)

def endCauseOf : Nat → EndCause
  | 0 => .level
  | 1 => .request
  | 2 => .estop
  | 3 => .abandon
  | 4 => .vesselReset
  | _ => .power

/-- A CAST_CLOSE body, for the brew of its header. Fields of the cast record that the body does not carry
stand at their values in a CLOSED record with nothing running. -/
def readCastClose (brew : Nat) (bs : List Byte) : Cast × List Byte :=
  let (number, bs) := readNum 4 bs
  let (fermenter, bs) := readNum 1 bs
  let (opened, bs) := readSeq bs
  let (closed, bs) := readSeq bs
  let (endCause, bs) := readCode 5 bs
  let (flags, bs) := readNum 1 bs
  let (v20, bs) := readNum 8 bs
  let (r, bs) := readNum 3 bs
  let (gv, bs) := readNum 8 bs
  let (lineVolume, bs) := readNum 8 bs
  let (rebases, bs) := readNum 2 bs
  let (pauseCount, bs) := readNum 2 bs
  let (pitch, bs) := readOptional readPitch bs
  let (duty, bs) := readDuty bs
  ({ number := number, brew := brew, fermenter := fermenter, tariffSeq := duty.tariffSeq, opened := opened
     closed := some closed, state := .closed, endCause := some (endCauseOf endCause), pauses := []
     lineVolume := lineVolume, v20 := v20, r := r, gv := gv, lastCount := none, rebases := rebases
     pauseCount := pauseCount
     flags := { gravityHeld := flags.testBit 0, meterRebased := flags.testBit 1
                interrupted := flags.testBit 2, levelEnd := flags.testBit 3
                requestEnd := flags.testBit 4 }
     pitch := pitch, duty := some duty, rebasePending := false, settleTimer := none
     settleOver := false }, bs)

def readCastOpen (bs : List Byte) : OpenBody × List Byte :=
  let (cast, bs) := readNum 4 bs
  let (fermenter, bs) := readNum 1 bs
  let (opened, bs) := readSeq bs
  let (tariffSeq, bs) := readSeq bs
  let (strain, bs) := readNum 1 bs
  let (rate, bs) := readNum 2 bs
  let (gravity, bs) := readCode 1 bs
  let (lag, bs) := readCode 1 bs
  ({ cast := cast, fermenter := fermenter, opened := opened, tariffSeq := tariffSeq, strain := strain
     rate := rate, gravity := if gravity = 0 then .holdLast else .pause
     lag := if lag = 0 then .pause else .continue_ }, bs)

def readSettled (bs : List Byte) : SettledBody × List Byte :=
  let (cast, bs) := readNum 4 bs
  let (fermenter, bs) := readNum 1 bs
  let (openSeq, bs) := readSeq bs
  let (duty, bs) := readDuty bs
  ({ cast := cast, fermenter := fermenter, openSeq := openSeq, duty := duty }, bs)

def readPeriodClose (bs : List Byte) : CloseBody × List Byte :=
  let (period, bs) := readNum 2 bs
  let (casts, bs) := readNum 4 bs
  let (dl, bs) := readNum 8 bs
  let (cdl, bs) := readNum 8 bs
  let (duty, bs) := readNum 8 bs
  let (ytd, bs) := readNum 8 bs
  let (yearEnd, bs) := readCode 1 bs
  let (castCount, bs) := readNum 4 bs
  ({ period := period, casts := casts, dl := dl, cdl := cdl, duty := duty, ytd := ytd
     yearEnd := yearEnd == 1, castCount := castCount }, bs)

def readRelease (bs : List Byte) : ReleaseBody × List Byte :=
  let (releasedTo, bs) := readSeq bs
  let (seq, bs) := readSeq bs
  let (period, bs) := readNum 2 bs
  let (ytd, bs) := readNum 8 bs
  let (yearEnd, bs) := readCode 1 bs
  let (castCount, bs) := readNum 4 bs
  let (tariffSeq, bs) := readOptional readSeq bs
  let (tariff, bs) := readImage bs
  ({ releasedTo := releasedTo, close := { seq := seq, period := period, ytd := ytd, yearEnd := yearEnd == 1 }
     castCount := castCount, tariffSeq := tariffSeq, tariff := tariff }, bs)

/-- The body of a kind code 1 to 6, and the bytes after its last field. -/
def readBody (kind brew : Nat) (bs : List Byte) : Body × List Byte :=
  match kind with
  | 1 => let (b, bs) := readImage bs; (.tariff b, bs)
  | 2 => let (b, bs) := readCastOpen bs; (.castOpen b, bs)
  | 3 => let (b, bs) := readCastClose brew bs; (.castClose b, bs)
  | 4 => let (b, bs) := readSettled bs; (.castSettled b, bs)
  | 5 => let (b, bs) := readPeriodClose bs; (.periodClose b, bs)
  | _ => let (b, bs) := readRelease bs; (.release b, bs)

/-! ### The classes of a block (R157) -/

inductive BlockClass where
  | erased
  | good (record : Record)
  | bad
deriving DecidableEq, Repr

/-- Whether a block meets the four tests of a good record (R157). -/
def isGoodBlock (block : Nat) (bytes : List Byte) : Bool :=
  let check := (bytes.drop 508).take 2
  let kind := (bytes.getD 4 0).toNat
  check == (bytes.drop 510).take 2
    && xorWords (bytes.take 508) ^^^ xorWords check == BitVec.allOnes 16
    && decide (1 ≤ kind ∧ kind ≤ 6) && natOf (bytes.take 4) % 4096 == block

/-- The record a block's bytes hold (10.1). -/
def recordOf (bytes : List Byte) : Record :=
  let brew := natOf ((bytes.drop 6).take 2)
  { seq := BitVec.ofNat 32 (natOf (bytes.take 4)), skip := (bytes.getD 5 0).toNat, brew := brew
    period := natOf ((bytes.drop 8).take 2)
    body := (readBody (bytes.getD 4 0).toNat brew ((bytes.drop 10).take 498)).1 }

/-- The class of a block: the erased class is tested first (R157). -/
def classifyBlock (block : Nat) (bytes : List Byte) : BlockClass :=
  if bytes = erasedBlock then .erased
  else if isGoodBlock block bytes then .good (recordOf bytes) else .bad

/-- The entry of a JOURNAL_READ reply for a position (R166): the result NOT_FOUND, or OK with the record's
kind, skip count, brew number, period number and body fields (log 16). -/
def readEntry (q : Seq) (bytes : List Byte) : List Byte :=
  match classifyBlock (blockOf q) bytes with
  | .good r =>
    if r.seq = q then
      let body := (bytes.drop 10).take 498
      let rest := (readBody (bodyKind r.body) r.brew body).2
      num 1 (resultCode .ok) ++ num 1 (bodyKind r.body) ++ num 1 r.skip ++ num 2 r.brew ++ num 2 r.period
        ++ body.take (body.length - rest.length)
    else num 1 (resultCode .notFound)
  | .erased | .bad => num 1 (resultCode .notFound)

end Sys2Proof.Machine
end

