-- ==== Sys2Proof/Machine/Journal.lean ====
section
/-! DEFINITION. The Journal Port: offering records, the stages of a write, reads, and deferred and paged replies
(10.2 to 10.4, R171, R173). What a completion does to the other blocks is in Completion.lean. -/

namespace Sys2Proof.Machine

/-! ### Offering a record (R159, R160) -/

/-- A record as it is built, for a brew (0 for none), with the account's period number of this moment. -/
def newDraft (body : Body) (brew : Nat) (s : State) : Draft :=
  { body := body, brew := brew, period := s.duty.account.period, skip := 0, placed := false }

/-- Whether the write queue has a free place. -/
def queueHasPlace (s : State) : Bool := decide (s.journal.queue.length < 4)

/-- Whether a body is a CAST_CLOSE, which takes over the reservation its cast holds (R160). -/
def Body.isCastClose : Body → Bool
  | .castClose _ => true
  | .tariff _ | .castOpen _ | .castSettled _ | .periodClose _ | .release _ => false

/-- Whether a body is a RELEASE (R165). -/
def Body.isRelease : Body → Bool
  | .release _ => true
  | .tariff _ | .castOpen _ | .castClose _ | .castSettled _ | .periodClose _ => false

/-- A record is taken into the write queue with one reservation, or refused by a queue of four (R160). -/
def offerRecord (d : Draft) (s : State) : Option State :=
  if queueHasPlace s then
    some (withJournal (fun j =>
      { j with
        queue := j.queue ++ [d]
        reservations := if d.body.isCastClose then j.reservations else j.reservations + 1 }) s)
  else none

/-! ### Writing (R161 to R163) -/

/-- The first CAST_CLOSE of the queue put ahead of the records before it (R163). -/
def castCloseFirst (queue : List Draft) : Option (List Draft) :=
  match queue.find? fun d => d.body.isCastClose with
  | some d => some (d :: queue.eraseP fun d => d.body.isCastClose)
  | none => none

/-- The queue as the next write takes it: in order, or under the power-fail warning a CAST_CLOSE alone, first
(R163). -/
def writeOrder (s : State) : Option (List Draft) :=
  if s.pins.powerFail then castCloseFirst s.journal.queue
  else if s.journal.queue.isEmpty then none else some s.journal.queue

/-- Whether a write may begin: the store is free, the journal is READY and not failed, no write protect, and a
record may be written (R161, R163). -/
def canBeginWrite (s : State) : Bool :=
  s.journal.op == .free && s.journal.mount == .ready && !s.journal.failed && !s.pins.protect
    && (writeOrder s).isSome

/-- A waiting read takes the free store, unless a record that may be written goes first (R166). -/
def startRead (s : State) : State :=
  if s.journal.op = .free ∧ s.journal.reads ≠ [] ∧ ¬ (s.journal.turn = .record ∧ canBeginWrite s = true) then
    withJournal (fun j => { j with op := .reading }) s
  else s

/-- The store falls free after a write: a waiting read goes first (R166). -/
def freeAfterWrite (s : State) : State :=
  startRead (withJournal (fun j => { j with op := .free, turn := .read }) s)

/-- The carried state of a RELEASE record, taken when its write begins (R159). With no PERIOD_CLOSE record
no RELEASE can be taken (R165), and the body keeps what it has. -/
def carriedBody (s : State) (b : ReleaseBody) : ReleaseBody :=
  { b with
    close := s.journal.lastClose.getD b.close
    castCount := s.journal.castCount
    tariffSeq := if s.duty.tariff = .active ∨ s.duty.tariff = .changing then some s.duty.activeSeq else none
    tariff := if s.duty.tariff = .active ∨ s.duty.tariff = .changing then s.duty.active else .zero }

/-- The record as its write begins (R159). -/
def Draft.begun (s : State) (d : Draft) : Draft :=
  match d.body with
  | .release b => { d with body := .release (carriedBody s b), placed := true }
  | .tariff _ | .castOpen _ | .castClose _ | .castSettled _ | .periodClose _ => { d with placed := true }

/-- The queue fails (R161): the record stays at the head with its skip count, and no write starts until
JOURNAL_RETRY. -/
def failQueue (s : State) : State :=
  freeAfterWrite (withJournal (fun j => { j with failed := true }) s)

/-- The write of the next record begins (R160, R161): its erase at the head position, which raises the head.
Its reservation is consumed at its first position. A record begun again by a retry needs room, since its
reservation is gone. -/
def beginWrite (s : State) : State :=
  match writeOrder s with
  | some (d :: rest) =>
    if d.placed && freeRoom s.journal == 0 then failQueue s
    else
      withJournal (fun j =>
        { j with
          queue := d.begun s :: rest
          reservations := if d.placed then j.reservations else j.reservations - 1
          head := j.head + 1
          op := .erasing }) s
  | some [] => s
  | none => s

/-- JOURNAL_WRITE_BEGIN, where nothing holds the write. -/
def writeIfPossible (s : State) : State := if canBeginWrite s then beginWrite s else s

/-- The position the write has reached: the head was raised when its erase began. -/
def writePosition (j : Journal) : Seq := j.head - 1

/-- Whether a journal write is in progress (R160). -/
def writeInProgress (j : Journal) : Bool :=
  j.op == .erasing || j.op == .programming || j.op == .verifying

/-- What the block of a cut write holds: any bytes that read bad or erased (R163, log 38). -/
def cutBytes (block : Nat) (held : List Byte) : List Byte :=
  let bytes := fitBlock (Config.cutBlock block held)
  match classifyBlock block bytes with
  | .good _ => erasedBlock
  | .erased | .bad => bytes

/-- The store as a full reset leaves it: the block of a write in progress is cut short (R163). -/
def cutStore (s : State) : Store :=
  if writeInProgress s.journal then
    let block := blockOf (writePosition s.journal)
    storeWrite block (cutBytes block (storeRead s.store block)) s.store
  else s.store

/-- The erase completes: the block reads all ones and the record is programmed (R161). -/
def eraseDone (s : State) : State :=
  if s.journal.op = .erasing then
    { withJournal (fun j => { j with op := .programming }) s with
      store := storeWrite (blockOf (writePosition s.journal)) erasedBlock s.store }
  else s

/-- The program completes: the block holds the record and is read back (R161). -/
def programDone (s : State) : State :=
  match s.journal.op, s.journal.queue with
  | .programming, d :: _ =>
    { withJournal (fun j => { j with op := .verifying }) s with
      store := storeWrite (blockOf (writePosition s.journal))
        (blockBytes (writePosition s.journal) d) s.store }
  | _, _ => s

/-- The read-back differs: the position is bad. The write moves on, or the queue fails at three bad positions
or for want of room (R161). -/
def badPosition (s : State) : State :=
  let s := raise .journalBlockBad .none none (.num (blockOf (writePosition s.journal))) s
  let s := withJournal (fun j => { j with consecutive := j.consecutive + 1 }) s
  if 3 ≤ s.journal.consecutive ∨ freeRoom s.journal = 0 then failQueue s
  else
    withJournal (fun j =>
      { j with
        queue := match j.queue with
          | d :: rest => { d with skip := saturate 255 d.skip } :: rest
          | [] => []
        head := j.head + 1
        op := .erasing }) s

/-- The record completes and leaves the queue; the store falls free (R160, R161). A waiting read takes it
after the completion is reported. -/
def popRecord (s : State) : State :=
  withJournal (fun j =>
    { j with queue := j.queue.tail, consecutive := 0, op := .free, turn := .read }) s

/-! ### Deferred and paged replies -/

/-- A request's reply is deferred (R171). -/
def deferReply (rq : Request) (code : Nat) (s : State) : State :=
  withAgent (fun a =>
    { a with deferred := a.deferred ++ [{ source := rq.source, tag := rq.tag, code := code }] }) s

/-- The deferred REPLY of the oldest request of a code is offered, and its entry leaves the list (R171). -/
def sendDeferred (code : Nat) (r : Result) (data : List Byte) (s : State) : State :=
  match s.agent.deferred.find? fun d => d.code == code with
  | some d =>
    let s := withAgent (fun a => { a with deferred := a.deferred.eraseP fun d => d.code == code }) s
    (reply d.source d.tag (BitVec.ofNat 8 code) r data s).2
  | none => s

/-- The page count of a paged reply's data: 116 bytes a page, at least one page (R173). -/
def pageCount (data : List Byte) : Nat := max 1 ((data.length + 115) / 116)

/-- The page number, page count and bytes of a page (R173). -/
def pageOf (page : Nat) (data : List Byte) : List Byte :=
  num 1 page ++ num 1 (pageCount data)
    ++ (if page < pageCount data then (data.drop (page * 116)).take 116 else [])

/-! ### Reading (R166) -/

/-- A block read for JOURNAL_READ completes; after the last block the deferred reply is sent and the store
falls free, a waiting record going first. A position that was unreleased when its request was taken is read though it
has been released since (DESIGN CHOICE, log 50). -/
def readBlockDone (answer : StoreAnswer) (s : State) : State :=
  match s.journal.op, s.journal.reads with
  | .reading, job :: rest =>
    let q := job.seq + BitVec.ofNat 32 job.done
    let (bytes, store) := readBlock (blockOf q) answer s.store
    let job := { job with done := job.done + 1, entries := job.entries ++ readEntry q bytes }
    let s := { s with store := store }
    if job.done < job.count then withJournal (fun j => { j with reads := job :: rest }) s
    else
      let s := withJournal (fun j => { j with reads := rest, op := .free, turn := .record }) s
      startRead (sendDeferred 27 .ok (pageOf job.page (num 1 job.count ++ job.entries)) s)
  | _, _ => s

end Sys2Proof.Machine
end

