-- ==== Sys2Proof/Machine/Duty.lean ====
section
/-! DEFINITION. The Duty Accountant: the computation of a charge in its stages, the pending charges and the Duty
Account, and the change of tariffs (chapter 9). -/

namespace Sys2Proof.Machine

/-! ### The stages (9.1) -/

/-- Stage 2: mean gravity, rounded half up; 0 for no volume (R140). -/
def meanGravity (v20 gv : Nat) : Nat := if v20 = 0 then 0 else (2 * gv + v20) / (2 * v20)

/-- Stage 5: the number and rate of the first band whose upper bound is at least Gm, else of the last band
with ABOVE_BANDS (R142). `i` is the number of the first band listed. -/
def findBand (gm : Nat) : Nat → List (Nat × Nat) → Nat × Nat × Bool
  | i, [] => (i, 0, true)
  | i, [(upper, rate)] => (i, rate, decide (upper < gm))
  | i, (upper, rate) :: b :: rest =>
    if gm ≤ upper then (i, rate, false) else findBand gm (i + 1) (b :: rest)

/-- Stage 6: the portions of the span from `y` to `y + cdl` in the tiers, from tier `i` with lower bound `lo`
on; the last tier has no upper bound (R143). -/
def portionsFrom (y cdl rate : Nat) : Nat → Nat → List (Nat × Nat) → List Portion
  | _, _, [] => []
  | i, lo, (upper, relief) :: rest =>
    let top := if rest.isEmpty then y + cdl else min upper (y + cdl)
    let q := top - max lo y
    let gross := q * rate
    let rel := gross * relief / 1000000
    let later := portionsFrom y cdl rate (i + 1) upper rest
    if q = 0 then later
    else { tier := i, q := q, gross := gross, relief := rel, net := gross - rel } :: later

/-- Stages 3 to 7 on a volume in millilitres and a mean gravity, with a tariff and a base Y (R141 to R144). -/
def computeDuty (t : TariffImage) (seq : Seq) (source : DutySource) (v20mL gm baseY : Nat) : DutyPart :=
  let dl := v20mL * gm / 1000000
  let a := dl * t.allowance / 1000000
  let cdl := dl - a
  let (band, rate, above) := findBand gm 1 (t.bands.take t.bandCount)
  let portions := portionsFrom baseY cdl rate 1 0 (t.tiers.take t.tierCount)
  let n := (portions.map Portion.net).sum
  { tariffSeq := seq, source := source, v20mL := v20mL, gm := gm, dl := dl, allowance := t.allowance, a := a
    cdl := cdl, band := band, rate := rate, aboveBands := above, baseY := baseY, portions := portions
    n := n, d := (n + 500) / 1000 }

/-- The base Y: the account's year-to-date CDL and the CDL of every pending charge (R139). -/
def baseY (d : Duty) : Nat := d.account.ytd + (d.charges.map Charge.cdl).sum

/-- The duty part of a metered cast, from its V20 and GV (R139, R140). -/
def meteredDuty (s : State) (v20 gv : Nat) : DutyPart :=
  computeDuty s.duty.active s.duty.activeSeq .metered (v20 / 1000) (meanGravity v20 gv) (baseY s.duty)

/-! ### The account -/

/-- A charge joins the tail of the pending charges (R139). -/
def addCharge (cast : Nat) (d : DutyPart) (s : State) : State :=
  withDuty (fun u =>
    { u with charges := u.charges ++ [{ cast := cast, dl := d.dl, cdl := d.cdl, d := d.d }] }) s

/-- Stage 8 (R144, R151). -/
def Account.take (a : Account) (dl cdl d : Nat) : Account :=
  { a with
    casts := fit 32 (a.casts + 1)
    dl := fit 64 (a.dl + dl)
    cdl := fit 64 (a.cdl + cdl)
    duty := fit 64 (a.duty + d)
    ytd := fit 64 (a.ytd + cdl) }

/-- The charge at the head of the pending charges enters the account, and DUTY_CHARGED is raised for its cast
and brew (R151). -/
def takeCharge (brew : Nat) (s : State) : State :=
  match s.duty.charges with
  | c :: rest =>
    raise .dutyCharged (.cast c.cast) (some brew) (.num c.d)
      (withDuty (fun u => { u with account := u.account.take c.dl c.cdl c.d, charges := rest }) s)
  | [] => s

/-- The period number after one: from 65,535 to 1 (R150, R154). -/
def nextPeriod (n : Nat) : Nat := if n = 65535 then 1 else n + 1

/-- The account when a PERIOD_CLOSE record completes (R154). -/
def Account.closePeriod (a : Account) (yearEnd : Bool) : Account :=
  { period := nextPeriod a.period, casts := 0, dl := 0, cdl := 0, duty := 0
    ytd := if yearEnd then 0 else a.ytd }

/-! ### Tariffs -/

/-- A TARIFF record completes: its image and sequence become the Active Tariff, and the pending bank is made
empty unless a cell of it has been written since the image was taken (R149, R154). -/
def activateTariff (image : TariffImage) (seq : Seq) (s : State) : State :=
  let s := withDuty (fun u => { u with tariff := .active, active := image, activeSeq := seq }) s
  if s.duty.bankTouched then s else { s with tables := { s.tables with tariff := zeroTable 13 5 } }

/-- A TARIFF record of the pending bank is offered; the image is taken now. -/
def offerTariff (s : State) : Option State :=
  (offerRecord (newDraft (.tariff (bankImage s.tables)) 0 s) s).map
    (withDuty fun u => { u with bankTouched := false })

/-- Whether a first activation can be made (R149). -/
def canActivate (s : State) : Bool :=
  s.duty.tariff == .none && s.journal.mount == .ready && bankValid s.tables && queueHasPlace s
    && decide (1 ≤ freeRoom s.journal)

end Sys2Proof.Machine
end

