-- ==== Sys2Proof/Machine/Pause.lean ====
section
/-! DEFINITION. The cast pump and the pause causes of the cast (R120). -/

namespace Sys2Proof.Machine

/-- The cast pump is driven to a demand: a refused offer is kept as unsent, and a newer one replaces it
(R120). The demand alone is kept, for the pump the Line Table names when it is offered again (DESIGN CHOICE, log 52). -/
def drivePump (demand : Nat) (s : State) : State :=
  let (r, t) := offerDrive (lineRow s.tables).pump demand .castMeter s
  { t with castMeter := { t.castMeter with pumpUnsent := if r.taken then none else some demand } }

/-- An unsent pump offer is offered again (R120). -/
def reofferPump (s : State) : State :=
  match s.castMeter.pumpUnsent with
  | some d => drivePump d s
  | none => s

/-- Whether a pause cause holds for a cast (R120). DOSING_FAILED holds until the cast leaves for SETTLING
(R135, log 19). -/
def pauseHolds (s : State) (c : Cast) : PauseCause → Bool
  | .gravityStale =>
    (brew? s c.brew).any (fun b => b.gravity == .pause) && !freshPoint s (lineRow s.tables).gravity
  | .pitchLag =>
    (brew? s c.brew).any (fun b => b.lag == .pause) && c.pitch.any PitchPart.pitchLag
  | .dosingFailed =>
    (brew? s c.brew).any (fun b => b.lag == .pause) && c.pitch.any PitchPart.dosingFailed
      && c.state != .settling
  | .notAuto => (s.vessels.get .whirlpool).authority == .hand

/-- The four pause causes in the order of R120. -/
def pauseCauses : List PauseCause := [.gravityStale, .pitchLag, .dosingFailed, .notAuto]

/-- The set of pause causes brought up to date: those that still hold, in the order they joined, then those
that join. -/
def nextPauses (s : State) (c : Cast) : List PauseCause :=
  let kept := c.pauses.filter (pauseHolds s c)
  kept ++ pauseCauses.filter fun p => pauseHolds s c p && !c.pauses.contains p

/-- The cause CAST_PAUSED names: the cause, or where several hold one of them that the spec leaves open
(log 11). -/
def pauseArgument (l : List PauseCause) : Nat :=
  match l with
  | [] => 0
  | [p] => pauseCauseCode p
  | p :: q :: rest =>
    let codes := (p :: q :: rest).map pauseCauseCode
    codes.getD (Config.pausedArgument codes % codes.length) 0

/-- Entry to PAUSED, from METERING or at the opening write's completion (R115, R120): the pump is driven off, the
pause count raised and CAST_PAUSED raised. -/
def pausedEntry (s : State) : State :=
  match s.castMeter.record with
  | some c =>
    raiseCast .castPaused (.num (pauseArgument c.pauses))
      (withCast (fun c => { c with state := .paused, pauseCount := saturate 65535 c.pauseCount }) (drivePump 0 s))
  | none => s

/-- The Cast Meter reviews the pause causes, from the cast's opening to its entry to CHARGING: a METERING
cast pauses when a cause joins the empty set, a PAUSED one resumes when the last leaves; in OPENING and
SETTLING no state changes (R120). -/
def reviewPauses (s : State) : State :=
  match s.castMeter.record with
  | none => s
  | some c =>
    let pauses := nextPauses s c
    let t := withCast (fun c => { c with pauses := pauses }) s
    match c.state with
    | .opening | .settling => t
    | .charging | .closed => s
    | .metering => if pauses.isEmpty then t else pausedEntry t
    | .paused =>
      if pauses.isEmpty then
        raiseCast .castResumed (.num c.pauseCount)
          (drivePump 1000 (withCast (fun c => { c with state := .metering }) t))
      else t

end Sys2Proof.Machine
end

