-- ==== Sys2Proof/Machine/Pitch.lean ====
section
/-! DEFINITION. The Pitch Unit: strokes due, the stroke exchange, lag, and the end of pitching (chapter 8). -/

namespace Sys2Proof.Machine

/-- The pitch part of the cast, if it has one. -/
def pitch? (s : State) : Option PitchPart := s.castMeter.record.bind Cast.pitch

/-- The strain row of a strain number s: row s − 1 (8.1). -/
def strainOf (t : Tables) (strain : Nat) : StrainRow := strainRow t (strain - 1)

/-- The strokes due for a GV: two divisions, both rounded down (R130). -/
def targetStrokes (row : StrainRow) (rate gv : Nat) : Nat :=
  gv * rate / (1000 * row.concentration * row.viability) / row.stroke

/-- The lag: target less confirmed and unconfirmed (R129). -/
def PitchPart.lag (p : PitchPart) : Nat := p.target - (p.confirmed + p.unconfirmed)

/-- The lag test with its hysteresis (R136). -/
def PitchPart.testLag (limit : Nat) (p : PitchPart) : PitchPart :=
  if p.pitchLag then { p with pitchLag := decide (limit / 2 < p.lag) }
  else if limit < p.lag then { p with pitchLag := true, lagged := true } else p

/-- The Pitch Unit tests the lag and reports each change of the flag to the Cast Meter (R136). -/
def testLag (s : State) : State :=
  reviewPauses (withPitch (fun p => p.testLag (strainOf s.tables p.strain).lagLimit) s)

/-- Whether a frame of the insertion queue is the Pitch Unit's. -/
def Owner.isPitchUnit : Owner → Bool
  | .pitchUnit _ => true
  | .agent | .guardUnit | .sequencer _ | .boilUnit | .castMeter => false

/-- Whether a DRIVE of the Pitch Unit for the dose point is in the insertion queue, of whichever cast (R15). -/
def doseQueued (s : State) : Bool :=
  (point? s.tables (lineRow s.tables).dose).any fun p =>
    s.loop.queue.any fun q => q.owner.isPitchUnit && samePoint (driveFrame s p 1000) q.frame

/-- Whether every condition of a stroke holds but the validity of the dose point (R131), and no earlier DRIVE of the
unit for the point is queued: frame queued tells of this cast's alone, R15 of every cast's (log 26). -/
def mayIssue (s : State) (c : Cast) (p : PitchPart) : Bool :=
  (c.state == .metering || c.state == .paused || (c.state == .settling && !c.settleOver))
    && !p.outstanding && decide (p.issued < p.target) && !p.dosingFailed && !p.frameQueued
    && !doseQueued s && (s.vessels.get .whirlpool).authority == .auto

/-- A stroke's frame is taken (R131); one that an idle port begins at once has left, and its timer runs
(R132). -/
def PitchPart.issue (now : LoopTime) (begun : Bool) (p : PitchPart) : PitchPart :=
  { p with
    issued := fit 64 (p.issued + 1)
    outstanding := true
    frameQueued := !begun
    unsent := false
    strokeTimer := if begun then some now else p.strokeTimer }

/-- The Pitch Unit tries to issue a stroke (R131). -/
def tryIssue (s : State) : State :=
  match s.castMeter.record with
  | none => s
  | some c =>
    match c.pitch with
    | none => s
    | some p =>
      if mayIssue s c p then
        match offerDrive (lineRow s.tables).dose 1000 (.pitchUnit c.number) s with
        | (.noPoint, t) => t
        | (.refused, t) => withPitch (fun p => { p with unsent := true }) t
        | (.queued, t) => withPitch (PitchPart.issue s.loopTime false) t
        | (.begun, t) => withPitch (PitchPart.issue s.loopTime true) t
      else s

/-- A new GV is taken (R118 stage 7, R130). -/
def newGv (s : State) : State :=
  match s.castMeter.record with
  | none => s
  | some c =>
    tryIssue (testLag (withPitch (fun p =>
      { p with target := fit 64 (targetStrokes (strainOf s.tables p.strain) p.rate c.gv) }) s))

/-- The dose frame of a cast has left the insertion queue, or was replaced (R132). A frame of an earlier
cast changes no part, and the try follows it all the same (log 26). -/
def doseFrameLeft (number : Nat) (s : State) : State :=
  let mine := s.castMeter.record.any fun c => c.number == number && c.state.pitches
  let s := if mine then
      withPitch (fun p =>
        { p with
          frameQueued := false
          strokeTimer := if p.outstanding then some s.loopTime else p.strokeTimer }) s
    else s
  tryIssue s

/-- The part after a timely STROKE_DONE (R133). -/
def PitchPart.confirm (p : PitchPart) : PitchPart :=
  { p with
    confirmed := fit 64 (p.confirmed + 1)
    outstanding := false
    strokeTimer := none
    consecutive := 0 }

/-- The part after a late STROKE_DONE (R133). -/
def PitchPart.confirmLate (p : PitchPart) : PitchPart :=
  { p with
    unconfirmed := p.unconfirmed - 1
    confirmed := fit 64 (p.confirmed + 1)
    late := saturate 65535 p.late }

/-- The outstanding stroke becomes unconfirmed and its timer stops (R134, R137). -/
def PitchPart.giveUp (p : PitchPart) : PitchPart :=
  { p with unconfirmed := fit 64 (p.unconfirmed + 1), outstanding := false, strokeTimer := none }

/-- The arguments of DOSE_SEQUENCE (R133). -/
def noneDue : Nat := 0
def notDosing : Nat := 1

/-- A STROKE_DONE routed to the Pitch Unit (R133), but for the cast's entry to CHARGING that may follow. -/
def strokeDonePart (s : State) : State :=
  match s.castMeter.record with
  | none => raiseCast .doseSequence (.num notDosing) s
  | some c =>
    match c.pitch with
    | none => raiseCast .doseSequence (.num notDosing) s
    | some p =>
      if !c.state.pitches then raiseCast .doseSequence (.num notDosing) s
      else if p.outstanding then tryIssue (testLag (withPitch PitchPart.confirm s))
      else if 0 < p.unconfirmed then
        raiseCast .doseLate (.num (p.unconfirmed - 1)) (withPitch PitchPart.confirmLate s)
      else
        raiseCast .doseSequence (.num noneDue)
          (withPitch (fun p => { p with sequence := saturate 65535 p.sequence }) s)

/-- The stroke timer runs out (R134, R135), but for the cast's entry to CHARGING that may follow. -/
def strokeTimeoutPart (s : State) : State :=
  match pitch? s with
  | none => s
  | some p =>
    let count := p.consecutive + 1
    let s := withPitch (fun p => { p.giveUp with consecutive := count }) s
    let s := raiseCast .doseTimeout (.num count) s
    let s := if count = (lineRow s.tables).failureLimit then
        reviewPauses (withPitch (fun p => { p with dosingFailed := true }) s)
      else s
    tryIssue (testLag s)

/-- Whether a stroke is outstanding. -/
def strokeOutstanding (s : State) : Bool := (pitch? s).any PitchPart.outstanding

/-- The pitch part is completed at the entry to CHARGING (R138). -/
def PitchPart.complete (p : PitchPart) : PitchPart :=
  { p with deficit := some (p.target - p.issued), strokeTimer := none }

/-- The pitch part of a cast that opens (R129). No dose DRIVE of this cast is queued (8.2); one of an earlier cast that
still is holds its strokes back by R15 (`mayIssue`, log 26). -/
def newPitch (t : Tables) (b : Brew) : Option PitchPart :=
  if b.strain = 0 then none
  else
    some
      { strain := b.strain
        rate := if b.override = 0 then (strainOf t b.strain).rate else b.override
        target := 0, issued := 0, confirmed := 0, unconfirmed := 0, outstanding := false
        consecutive := 0, late := 0, sequence := 0, frameQueued := false, unsent := false
        strokeTimer := none, pitchLag := false, lagged := false, dosingFailed := false
        deficit := none }

end Sys2Proof.Machine
end

