-- ==== Sys2Proof/Machine/Cast.lean ====
section
/-! DEFINITION. The Cast Meter: the open attempt, metering, the end triggers, settling, the entry to CHARGING, and
the completion of the opening write (chapter 7). -/

namespace Sys2Proof.Machine

/-- A brew's state changes, with BREW_STATE (R54). -/
def changeBrewState (number : Nat) (st : BrewState) (subject : Subject) (s : State) : State :=
  raise .brewState subject (some number) (.num (brewStateCode st))
    (withBrew number (fun b => { b with state := st }) s)

/-! ### Opening (R112 to R114) -/

/-- The nine checks of an open attempt in their order, each with its reason (R112). -/
def openChecks (s : State) : List (Bool × OpenRefusal) :=
  let line := lineRow s.tables
  [ (s.journal.mount == .ready, .journalNotReady),
    (!s.pins.protect, .journalProtected),
    (!s.journal.failed, .journalFailed),
    (decide (2 ≤ freeRoom s.journal), .journalFull),
    (queueHasPlace s, .journalBusy),
    (s.journal.orphans.isEmpty, .orphans),
    (s.duty.tariff == .active, .noTariff),
    (lineValid s.tables && correctionValid s.tables, .lineInvalid),
    ((entryOf s line.temperature).current.isSome && (entryOf s line.gravity).current.isSome,
      .noLineValue) ]

/-- The reason of the first check that fails (R112). -/
def openRefusal (s : State) : Option OpenRefusal :=
  ((openChecks s).find? fun c => !c.1).map Prod.snd

/-- The next cast number: from 4,294,967,295 to 1 (R164). -/
def nextCastNumber (n : Nat) : Nat := if n = 4294967295 then 1 else n + 1

/-- The cast record at its creation (R114). -/
def newCast (number : Nat) (b : Brew) (s : State) : Cast :=
  { number := number, brew := b.number, fermenter := b.fermenter, tariffSeq := s.duty.activeSeq
    opened := s.loopTime, closed := none, state := .opening, endCause := none, pauses := []
    lineVolume := 0, v20 := 0, r := 0, gv := 0, lastCount := none, rebases := 0, pauseCount := 0
    flags := { gravityHeld := false, meterRebased := false, interrupted := false, levelEnd := false
               requestEnd := false }
    pitch := newPitch s.tables b, duty := none, rebasePending := false, settleTimer := none
    settleOver := false }

/-- The CAST_OPEN body of a cast (10.1); the rate of an unpitched brew is free (log 13). -/
def openBody (c : Cast) (b : Brew) : OpenBody :=
  { cast := c.number, fermenter := c.fermenter, opened := c.opened, tariffSeq := c.tariffSeq
    strain := b.strain
    rate := match c.pitch with
      | some p => p.rate
      | none => Config.unpitchedRate.toNat
    gravity := b.gravity, lag := b.lag }

/-- A successful open attempt (R114): all at one moment. -/
def openCast (b : Brew) (s : State) : State :=
  let c := newCast (nextCastNumber s.journal.castCount) b s
  match offerRecord (newDraft (.castOpen (openBody c b)) b.number s) s with
  | none => s
  | some s =>
    let s := withJournal (fun j =>
      { j with castCount := c.number, reservations := j.reservations + 1 }) s
    let s := { s with castMeter := { s.castMeter with record := some c } }
    let s := withBrew b.number (fun b => { b with castNo := some c.number }) s
    changeBrewState b.number .casting (.vessel .whirlpool) s

/-- The open attempt of a CAST step (R112): a reason, or the cast opened. With the occupant's cast already
open there is no second one. -/
def castAttempt (s : State) : Option OpenRefusal × State :=
  if castOpen s then (none, s)
  else
    match openRefusal s with
    | some r => (some r, s)
    | none =>
      match occupantBrew? s .whirlpool with
      | some b => (none, openCast b s)
      | none => (none, s)

/-! ### Metering (R116 to R118) -/

/-- The correction factor for a line temperature (R117). -/
def correctionFactor (t : Tables) (temperature : Int) : Int :=
  let x := (clampInt temperature 0 3100).toNat
  let i := x / 100
  if i = 31 then factorAt t 31
  else factorAt t i + Int.tdiv ((factorAt t (i + 1) - factorAt t i) * ((x % 100 : Nat) : Int)) 100

/-- The stages 1 to 6 of a flow increment (R118). -/
def Cast.meter (k dp f g : Nat) (held : Bool) (count : BitVec 32) (c : Cast) : Cast :=
  let total := dp * k * f + c.r
  let dV := total / 1000000
  { c with
    r := total % 1000000
    v20 := fit 64 (c.v20 + dV)
    lineVolume := fit 64 (c.lineVolume + dp * k / 1000)
    gv := fit 64 (c.gv + g * dV)
    lastCount := some count
    flags := { c.flags with gravityHeld := c.flags.gravityHeld || held }
    rebasePending := false }

/-- An implausible flow sample is rebased (R116). -/
def Cast.rebase (count : BitVec 32) (c : Cast) : Cast :=
  { c with
    lastCount := some count
    rebases := saturate 65535 c.rebases
    flags := { c.flags with meterRebased := true }
    rebasePending := true }

/-- The pulse step of a count: the difference modulo 2³² (R116). -/
def pulseStep (count last : BitVec 32) : Nat := (count - last).toNat

/-- A flow sample with its count, taken in METERING, PAUSED and SETTLING alone (R116). -/
def flowSample (count : BitVec 32) (s : State) : State :=
  match s.castMeter.record with
  | none => s
  | some c =>
    if c.state.meters then
      let line := lineRow s.tables
      match c.lastCount with
      | none => withCast (fun c => { c with lastCount := some count }) s
      | some last =>
        let dp := pulseStep count last
        if line.maxPulses < dp then
          raiseCast .meterRebased (.num (saturate 65535 c.rebases)) (withCast (Cast.rebase count) s)
        else
          let f := (correctionFactor s.tables (valueOf s line.temperature)).toNat
          let g := (valueOf s line.gravity).toNat
          newGv (withCast (Cast.meter line.k dp f g (!freshPoint s line.gravity) count) s)
    else s

/-! ### Settling and CHARGING (R123, R125) -/

/-- Entry to SETTLING: the settle timer starts (R123). -/
def enterSettling (s : State) : State :=
  reviewPauses (withCast (fun c =>
    { c with state := .settling, settleTimer := some s.loopTime, settleOver := false }) s)

/-- The CAST_CLOSE record of a cast is offered; taken, its charge joins the pending charges (R125, R151);
refused, it is kept. -/
def offerClose (d : Draft) (s : State) : State :=
  match offerRecord d s with
  | some t =>
    let t := { t with castMeter := { t.castMeter with keptClose := none } }
    match d.body with
    | .castClose c =>
      match c.duty with
      | some p => addCharge c.number p t
      | none => t
    | .tariff _ | .castOpen _ | .castSettled _ | .periodClose _ | .release _ => t
  | none => { s with castMeter := { s.castMeter with keptClose := some d } }

/-- The cast record at its entry to CHARGING: pitch part completed, duty part computed (R125). -/
def Cast.charging (s : State) (c : Cast) : Cast :=
  { c with
    state := .charging
    closed := some s.loopTime
    pauses := []
    settleTimer := none
    rebasePending := false
    pitch := c.pitch.map PitchPart.complete
    duty := some (meteredDuty s c.v20 c.gv) }

/-- Entry to CHARGING (R125). -/
def enterCharging (s : State) : State :=
  match s.castMeter.record with
  | none => s
  | some c =>
    let c := c.charging s
    let s := withCast (fun _ => c) s
    offerClose (newDraft (.castClose c) c.brew s) s

/-- A SETTLING cast leaves for CHARGING when its settle timer has run out and no stroke is outstanding
(R123, R137). -/
def maybeCharge (s : State) : State :=
  match s.castMeter.record with
  | none => s
  | some c =>
    if c.state = .settling ∧ c.settleOver = true ∧ strokeOutstanding s = false then enterCharging s else s

/-- The settle timer runs out (R123). -/
def settleExpiry (s : State) : State :=
  maybeCharge (withCast (fun c => { c with settleTimer := none, settleOver := true }) s)

/-- A STROKE_DONE notice routed to the Pitch Unit (R133, R137). -/
def strokeDone (s : State) : State := maybeCharge (strokeDonePart s)

/-- The stroke timer runs out (R134, R137). -/
def strokeTimeout (s : State) : State := maybeCharge (strokeTimeoutPart s)

/-! ### End triggers (R121, R124) -/

/-- The end cause is the first trigger taken; LEVEL and REQUEST set their flags with it (R121). -/
def Cast.endBy (cause : EndCause) (c : Cast) : Cast :=
  match c.endCause with
  | some _ => c
  | none =>
    { c with
      endCause := some cause
      flags := { c.flags with
        levelEnd := c.flags.levelEnd || cause == .level
        requestEnd := c.flags.requestEnd || cause == .request } }

/-- An end trigger other than the power-fail warning (R121). -/
def endTrigger (cause : EndCause) (s : State) : State :=
  match s.castMeter.record with
  | none => s
  | some c =>
    match c.state with
    | .opening => withCast (Cast.endBy cause) s
    | .metering => drivePump 0 (enterSettling (withCast (Cast.endBy cause) s))
    | .paused => enterSettling (withCast (Cast.endBy cause) s)
    | .settling | .charging | .closed => s

/-- The flag INTERRUPTED and the end cause POWER (R124). -/
def Cast.interrupt (c : Cast) : Cast :=
  let c := c.endBy .power
  { c with flags := { c.flags with interrupted := true } }

/-- An outstanding stroke becomes unconfirmed when the warning ends metering (R124, R137). -/
def PitchPart.giveUpIfOutstanding (p : PitchPart) : PitchPart := if p.outstanding then p.giveUp else p

/-- The power-fail warning is asserted (R124). -/
def castPowerFail (s : State) : State :=
  match s.castMeter.record with
  | none => s
  | some c =>
    match c.state with
    | .opening => withCast Cast.interrupt s
    | .metering =>
      enterCharging (drivePump 0 (withPitch PitchPart.giveUpIfOutstanding (withCast Cast.interrupt s)))
    | .paused | .settling =>
      enterCharging (withPitch PitchPart.giveUpIfOutstanding (withCast Cast.interrupt s))
    | .charging | .closed => s

/-! ### The opening write completes (R115) -/

/-- The whirlpool's CAST step takes effect, with its step lock, while it is the current step (R78, R115). -/
def castStepInEffect (s : State) : State :=
  if currentKind s .whirlpool = some .cast then
    withVessel .whirlpool (fun r => { r with stepLock := true })
      (withSeq .whirlpool (fun q => { q with phase := .inEffect }) s)
  else s

/-- The CAST_OPEN write of a cast completes (R115). -/
def castOpened (s : State) : State :=
  match s.castMeter.record with
  | none => s
  | some c =>
    if c.state = .opening then
      let s := castStepInEffect (raiseCast .castOpened (.num c.fermenter) s)
      let s := reviewPauses s
      let pauses := nextPauses s c
      if c.flags.interrupted then enterCharging s
      else if c.endCause.isSome then enterSettling s
      else if pauses.isEmpty then
        drivePump 1000 (withCast (fun c => { c with state := .metering }) s)
      else pausedEntry s
    else s

/-! ### Deliveries (R30) -/

/-- An accepted sample of a point is delivered to the Cast Meter if the valid Line Table row names it
(R30): the pause causes are reviewed, an unsent pump offer re-offered, a flow sample metered, and an unsent
stroke tried (R120, R131), the pump's offer before the stroke's (DESIGN CHOICE, log 49). -/
def castSample (row : Nat) (s : State) : State :=
  let line := lineRow s.tables
  if lineValid s.tables && (row == line.flow || row == line.temperature || row == line.gravity) then
    let s := reofferPump (reviewPauses s)
    let s := if row = line.flow then flowSample (BitVec.ofInt 32 (valueOf s row)) s else s
    if (pitch? s).any PitchPart.unsent then tryIssue s else s
  else s

/-- A stale expiry delivered to the Cast Meter (R30, R120). -/
def castExpiry (row : Nat) (s : State) : State :=
  let line := lineRow s.tables
  if lineValid s.tables && (row == line.flow || row == line.temperature || row == line.gravity) then
    reviewPauses s
  else s

/-- A level sample of the whirlpool is handed to the Cast Meter (R122). -/
def castLevel (value : Int) (s : State) : State :=
  let meters := s.castMeter.record.any fun c => c.state == .metering || c.state == .paused
  if meters && decide (value ≤ ((vesselRow s.tables .whirlpool).emptyLevel : Int)) then
    endTrigger .level s
  else s

end Sys2Proof.Machine
end

