-- ==== Sys2Proof/Machine/Drive.lean ====
section
/-! DEFINITION. The drives of a sequencer: step and heat drives, unsent offers, the forced zero and the refresh
timer (R74, R93, R94). -/

namespace Sys2Proof.Machine

/-! ### Unsent offers -/

/-- The unsent offers without that of a point row. -/
def dropUnsent (row : Nat) (l : List UnsentOffer) : List UnsentOffer := l.filter fun u => u.row != row

/-- The unsent offers with a newer one for its point (R93). -/
def putUnsent (u : UnsentOffer) (l : List UnsentOffer) : List UnsentOffer := dropUnsent u.row l ++ [u]

/-- What an offer's outcome leaves of the unsent offers: a refused one is kept, any other clears the point's
(R93; a point with no valid row keeps none, log 27). -/
def afterOffer (r : OfferResult) (u : UnsentOffer) (l : List UnsentOffer) : List UnsentOffer :=
  match r with
  | .refused => putUnsent u l
  | .noPoint | .queued | .begun => dropUnsent u.row l

/-- Offers a DRIVE of a sequencer to a point (R74, R93). -/
def seqOffer (v : Vessel) (u : UnsentOffer) (s : State) : OfferResult × State :=
  let (r, t) := offerDrive u.row u.demand (.sequencer v) s
  (r, withSeq v (fun q => { q with unsent := afterOffer r u q.unsent }) t)

/-- Offers a step's DRIVE; a point with no valid row marks the step NO_POINT (R74). -/
def stepDrive (v : Vessel) (u : UnsentOffer) (s : State) : OfferResult × State :=
  let (r, t) := seqOffer v u s
  (r, if r = .noPoint then withSeq v (fun q => { q with noPoint := true }) t else t)

/-- A TRANSFER's DRIVE to one of its points, if it names one. -/
def transferDrive (v : Vessel) (row : Option Nat) (demand : Nat) (s : State) : State :=
  match row with
  | some r => (stepDrive v { row := r, demand := demand, ofStep := false } s).2
  | none => s

/-- A TRANSFER sends its route point on and then its pump point (R77, R91). -/
def transferOn (v : Vessel) (step : StepRow) (s : State) : State :=
  transferDrive v step.drive step.value (transferDrive v step.route 1000 s)

/-- A TRANSFER sends its pump point off and then its route point (R76, R82, R91). -/
def transferOff (v : Vessel) (step : StepRow) (s : State) : State :=
  transferDrive v step.route 0 (transferDrive v step.drive 0 s)

/-! ### The heat drive (R93, R94) -/

/-- A heat demand is offered: the last demand becomes it, taken or refused; taken, the refresh timer restarts
(R93). -/
def offerHeat (v : Vessel) (d : Nat) (s : State) : State :=
  let s := withSeq v (fun q => { q with lastDemand := d }) s
  match heatRow? s.tables v with
  | some row =>
    let (r, t) := seqOffer v { row := row, demand := d, ofStep := false } s
    if r.taken then withSeq v (fun q => { q with refreshTimer := some s.loopTime }) t else t
  | none => s

/-- The heat demand is forced to 0: a zero is offered once, whatever the deadband (R94). -/
def forceZero (v : Vessel) (s : State) : State :=
  if heated v then offerHeat v 0 (withSeq v (fun q => { q with zeroForced := true }) s) else s

/-- Whether the last heat offer was refused and not taken since (R93). -/
def heatUnsent (s : State) (v : Vessel) : Bool :=
  match heatRow? s.tables v with
  | some row => (s.seqs.get v).unsent.any fun u => u.row == row
  | none => false

/-- |a − b|. -/
def gap (a b : Nat) : Nat := (a - b) + (b - a)

/-- A computed demand is offered when it differs from the last by the deadband or the last offer was refused (R93),
and the first after a forced zero whatever the deadband (R94; DEDUCED, log 45). -/
def heatDemand (v : Vessel) (d : Nat) (s : State) : State :=
  let q := s.seqs.get v
  if q.zeroForced = true ∨ (vesselRow s.tables v).deadband ≤ gap d q.lastDemand ∨ heatUnsent s v = true then
    offerHeat v d (withSeq v (fun q => { q with zeroForced := false }) s)
  else s

/-! ### The refresh timer (R93) -/

/-- Whether the sequencer is RUNNING in a HOLD, RAMP or BOIL step on a vessel with a heat point. -/
def heatingStep (s : State) (v : Vessel) : Bool :=
  heated v && (s.seqs.get v).state == .running
    && match currentKind s v with
      | some .hold | some .ramp | some .boil => true
      | some .wait | some .drive | some .transfer | some .cast | none => false

/-- Whether an unsent offer is kept; for the kettle the refused head of the send queue counts as one (R103). -/
def keepsUnsent (s : State) (v : Vessel) : Bool :=
  !(s.seqs.get v).unsent.isEmpty || (v == .kettle && s.boil.headRefused)

/-- The refresh timer runs while either case of R93 holds, and stops when neither does. -/
def refreshSync (s : State) (v : Vessel) : State :=
  let run := heatingStep s v || keepsUnsent s v
  withSeq v (fun q =>
    { q with refreshTimer := if run then some (q.refreshTimer.getD s.loopTime) else none }) s

end Sys2Proof.Machine
end

