-- ==== Sys2Proof/Machine/Boil.lean ====
section
/-! DEFINITION. The Boil Unit: the send queue, the walk of the additions, and the stages of a sample of the BOIL
step (chapter 6). -/

namespace Sys2Proof.Machine

/-! ### The boil record -/

/-- Changes the boil record of a brew, if it has one (R108). -/
def withBoilRecord (number : Nat) (f : BoilRecord → BoilRecord) (s : State) : State :=
  withBrew number (fun b => { b with boil := b.boil.map f }) s

/-- An event of the boil names the kettle and the brew concerned (6.9). -/
def raiseBoil (kind : EventKind) (number : Nat) (arg : EventArg) (s : State) : State :=
  raise kind (.vessel .kettle) (some number) arg s

/-- An addition is recorded missed, with ADDITION_MISSED (R102 to R107). -/
def recordMissed (number index : Nat) (cause : MissCause) (s : State) : State :=
  raiseBoil .additionMissed number (.num index)
    (withBoilRecord number (fun r => { r with missed := r.missed ++ [(index, cause)] }) s)

/-- An addition is recorded fired with the clock of its brew's record, with ADDITION_FIRED (R103). -/
def recordFired (number index : Nat) (s : State) : State :=
  raiseBoil .additionFired number (.num index)
    (withBoilRecord number (fun r => { r with fired := r.fired ++ [(index, r.clock)] }) s)

/-! ### The send queue (R96, R103) -/

/-- The offer of an entry: no frame when its row is not valid or not of kind ADDITION_DRIVE (R96). -/
def offerAddition (e : SendEntry) (s : State) : OfferResult × State :=
  match point? s.tables e.point with
  | some p => if p.kind = .additionDrive then offer (driveFrame s p e.quantity) .boilUnit s else (.noPoint, s)
  | none => (.noPoint, s)

/-- The head of the send queue is removed. -/
def popSend (s : State) : State :=
  withBoil (fun b => { b with sendQueue := b.sendQueue.tail, headRefused := false }) s

/-- The entries of a brew are removed from the send queue, unrecorded: at a halt (R107), and when the brew's row is
freed (R103, log 39). -/
def dropSends (number : Nat) (s : State) : State :=
  let headMine := s.boil.sendQueue.head?.any fun e => e.brew == number
  withBoil (fun u =>
    { u with
      sendQueue := u.sendQueue.filter fun e => e.brew != number
      headRefused := u.headRefused && !headMine }) s

/-- The head of the send queue is offered, and after a head that leaves no frame in the insertion queue the
next one (R103). -/
def pumpSend : Nat → State → State
  | 0, s => s
  | n + 1, s =>
    if (s.seqs.get .kettle).state = .suspended ∨ s.boil.outstanding = true then s
    else
      match s.boil.sendQueue with
      | [] => withBoil (fun b => { b with headRefused := false }) s
      | e :: _ =>
        if (brewRow? s e.brew).isNone then pumpSend n (popSend s)
        else
          match offerAddition e s with
          | (.noPoint, t) => pumpSend n (recordMissed e.brew e.index .noPoint (popSend t))
          | (.refused, t) => withBoil (fun b => { b with headRefused := true }) t
          | (.queued, t) =>
            recordFired e.brew e.index (withBoil (fun b => { b with outstanding := true }) (popSend t))
          | (.begun, t) => pumpSend n (recordFired e.brew e.index (popSend t))

/-- The Boil Unit offers from its send queue (R103). -/
def boilPump (s : State) : State := pumpSend (s.boil.sendQueue.length + 1) s

/-- The insertion queue tells the Boil Unit that its frame has left (R103). -/
def boilFrameLeft (s : State) : State := boilPump (withBoil (fun b => { b with outstanding := false }) s)

/-- A due addition joins the tail of the send queue, or is missed with SEND_FULL (R103). -/
def joinSend (number index : Nat) (a : AdditionRow) (s : State) : State :=
  if s.boil.sendQueue.length < 64 then
    let e : SendEntry := { brew := number, index := index, point := a.point, quantity := a.quantity }
    boilPump (withBoil (fun b => { b with sendQueue := b.sendQueue ++ [e] }) s)
  else recordMissed number index .sendFull s

/-! ### The walk (R102) -/

/-- The addition at an index of a recipe's list. -/
def additionAt (t : Tables) (recipe index : Nat) : AdditionRow := additionRow t (additionListRow t recipe index)

/-- The walk from the cursor: AUTO entries become due, a CONFIRM entry becomes pending and stops it. -/
def walkAdditions (b : Brew) : Nat → State → State
  | 0, s => s
  | n + 1, s =>
    if s.boil.pending.isSome ∨ (recipeRow s.tables b.recipe).addCount ≤ s.boil.cursor then s
    else
      let i := s.boil.cursor
      let a := additionAt s.tables b.recipe i
      if s.boil.clock < a.mark * 1000 then s
      else if a.confirm then
        raiseBoil .additionDue b.number (.num i)
          (withBoil (fun u => { u with pending := some i, confirmTimer := some s.loopTime }) s)
      else
        walkAdditions b n (joinSend b.number i a (withBoil (fun u => { u with cursor := i + 1 }) s))

/-- The pending addition is resolved: the cursor moves on (R102). -/
def resolvePending (i : Nat) (s : State) : State :=
  withBoil (fun u => { u with pending := none, confirmTimer := none, cursor := i + 1 }) s

/-- A CONTINUE handed to the Boil Unit (R83, R102). -/
def boilContinue (s : State) : State :=
  match s.boil.pending, occupantBrew? s .kettle with
  | some i, some b => joinSend b.number i (additionAt s.tables b.recipe i) (resolvePending i s)
  | _, _ => s

/-- The confirm timer runs out (R102). -/
def confirmExpiry (s : State) : State :=
  match s.boil.pending, occupantOf s .kettle with
  | some i, some n => recordMissed n i .timeout (resolvePending i s)
  | _, _ => withBoil (fun u => { u with confirmTimer := none }) s

/-! ### The stages of a sample (R98 to R101, R104, R105) -/

/-- The BOIL step begins: the Boil Unit is set afresh, but for its send queue and outstanding frame (R97). -/
def boilAfresh (s : State) : State :=
  withBoil (fun u =>
    { u with begun := false, clock := 0, cursor := 0, pending := none, confirmTimer := none }) s

/-- The kettle's level when its level point is fresh (R100, R104). -/
def kettleLevel (s : State) : Option Nat :=
  let row := (vesselRow s.tables .kettle).level
  if freshPoint s row then some (valueOf s row).toNat else none

/-- The boil begins: the record is filled afresh and BOIL_BEGUN raised (R100). -/
def beginBoil (b : Brew) (s : State) : State :=
  let level := kettleLevel s
  let record : BoilRecord :=
    { start := s.loopTime, clock := 0, startLevel := level, endLevel := none, evaporation := none
      levelMissing := level.isNone, lowEvaporation := false, halted := false, fired := [], missed := [] }
  let arg := match level with
    | some n => EventArg.num n
    | none => EventArg.absent
  raiseBoil .boilBegun b.number arg
    (withBrew b.number (fun b => { b with boil := some record }) (withBoil (fun u => { u with begun := true, clock := 0 }) s))

/-- The boil clock accrues dt (R101). -/
def accrueBoil (number dt : Nat) (s : State) : State :=
  let clock := s.boil.clock + dt
  withBoilRecord number (fun r => { r with clock := clock }) (withBoil (fun u => { u with clock := clock }) s)

/-- The evaporation of two levels, in decilitres and per-mille (R105). -/
def evaporationOf (start end_ : Nat) : Nat × Nat :=
  (start - end_, if start = 0 then 0 else (start - end_) * 1000 / start)

/-- Stages 1 and 2 of completion: the pending and the unreached entries are missed, in index order (R104). -/
def missRest (b : Brew) (s : State) : State :=
  let count := (recipeRow s.tables b.recipe).addCount
  let first := s.boil.cursor
  let s := withBoil (fun u => { u with pending := none, confirmTimer := none, cursor := count }) s
  (List.range' first (count - first)).foldl (fun s i => recordMissed b.number i .targetReached s) s

/-- The boil is complete: stages 1 to 6 of R104. The BOIL step then completes. -/
def completeBoil (b : Brew) (s : State) : State :=
  let s := missRest b s
  let level := kettleLevel s
  let evap := match (brew? s b.number).bind Brew.boil with
    | some r =>
      match r.startLevel, level with
      | some x, some y => some (evaporationOf x y)
      | _, _ => none
    | none => none
  let s := withBoilRecord b.number (fun r =>
    { r with
      endLevel := level
      levelMissing := r.levelMissing || level.isNone
      evaporation := evap }) s
  match evap with
  | none => raiseBoil .boilDone b.number .absent s
  | some e =>
    let s := raiseBoil .boilDone b.number (.num e.2) s
    if e.2 < (recipeRow s.tables b.recipe).minEvap then
      raiseBoil .lowEvaporation b.number (.num e.2)
        (withBoilRecord b.number (fun r => { r with lowEvaporation := true }) s)
    else s

/-- Whether the boil clock has reached the recipe's target (R104). -/
def boilTargetReached (s : State) (b : Brew) : Bool :=
  s.boil.begun && decide ((recipeRow s.tables b.recipe).target * 1000 ≤ s.boil.clock)

/-- Stages 1 to 3 of a sample: the begin test, the accrual, the walk (R98, R100 to R102). -/
def boilStages (b : Brew) (value : Int) (previous : Option Int) (dt : Nat) (s : State) : State :=
  let threshold : Int := (recipeRow s.tables b.recipe).threshold
  let s := if threshold ≤ value ∧ s.boil.begun = false then beginBoil b s else s
  if s.boil.begun then
    let s := if previous.any fun p => decide (threshold ≤ p) then accrueBoil b.number dt s else s
    walkAdditions b ((recipeRow s.tables b.recipe).addCount + 1) s
  else s

/-- The heat demand of a sample of the BOIL step (R99). -/
def boilHeat (s : State) (b : Brew) (step : StepRow) (value : Int) : Nat :=
  if ((recipeRow s.tables b.recipe).threshold : Int) ≤ value then step.value else 1000

/-! ### The halt (R107) -/

/-- The halt of a BOIL step: HALTED in the record of a boil that has begun, and the pending addition missed. -/
def haltBoilStep (number : Nat) (s : State) : State :=
  let s := if s.boil.begun then withBoilRecord number (fun r => { r with halted := true }) s else s
  match s.boil.pending with
  | some i =>
    recordMissed number i .halted (withBoil (fun u => { u with pending := none, confirmTimer := none }) s)
  | none => s

/-- The send-queue entries of the kettle's occupant are removed and missed, in queue order; those of an
earlier brew stay. -/
def haltSends (number : Nat) (s : State) : State :=
  let mine := s.boil.sendQueue.filter fun e => e.brew == number
  mine.foldl (fun s e => recordMissed number e.index .halted s) (dropSends number s)

end Sys2Proof.Machine
end

