-- ==== Sys2Proof/Machine/Sequencer.lean ====
section
/-! DEFINITION. The Vessel Sequencers: causes, suspension and resumption, steps that begin, take effect and end,
transfers, halts, CONTINUE, and the work of one sample (chapter 5, R63 to R67). -/

namespace Sys2Proof.Machine

/-! ### Steps that begin and end (R78, R79) -/

/-- The suspension causes holding now (R76). -/
def causesNow (s : State) (v : Vessel) : Causes :=
  { hand := (s.vessels.get v).authority == .hand
    stale := vesselValid s.tables v && !freshPoint s (vesselRow s.tables v).pv
    link := s.loop.linkDown
    power := s.pins.powerFail }

/-- Whether the beginning of a step of a kind forces the heat demand to 0 (R78, R94). -/
def StepKind.forcesZero : StepKind → Bool
  | .wait | .drive | .transfer => true
  | .hold | .ramp | .boil | .cast => false

/-- The sequencer's record as a step begins at a position (R78). -/
def Sequencer.begin (pos : Nat) (q : Sequencer) : Sequencer :=
  { q with
    position := some pos, phase := .begun, integral := 0, restClock := 0, holdElapsed := 0
    holdSince := none, rampRemainder := 0, dtBase := false
    setpoint := if pos = 0 then none else q.setpoint
    blocked := none, noPoint := false, onTemperature := false
    state := if q.causes.any then .suspended else .running }

/-- A step begins at a position (R78), with what its kind does at its beginning (R94, R97). The causes are
those that hold now. -/
def beginStep (v : Vessel) (pos : Nat) (s : State) : State :=
  let old := (s.seqs.get v).state
  let s := withSeq v (fun q => ({ q with causes := causesNow s v }).begin pos) s
  let s := slotsAtStepBegin v (raiseVessel .stepBegun v (.num pos) s)
  let entered := (s.seqs.get v).state == .suspended && old != .suspended
  let s := if (currentKind s v).any StepKind.forcesZero || entered then forceZero v s else s
  if currentKind s v = some .boil then boilAfresh s else s

/-- The argument of STEP_DONE: the position, or NO_POINT (R74, R79). -/
def doneArg (q : Sequencer) : EventArg :=
  if q.noPoint then .noPoint
  else match q.position with
    | some p => .num p
    | none => .absent

/-- The step ends: its step lock clears and the guard is told (R37, R49, R79, R82). -/
def endStep (v : Vessel) (s : State) : State :=
  let s := withVessel v (fun r => { r with stepLock := false }) s
  match (s.seqs.get v).position with
  | some pos => slotsAtStepEnd v pos s
  | none => s

/-- The current step completes, but for what follows it (R79). -/
def finishStep (v : Vessel) (s : State) : State :=
  let s := endStep v s
  let s := raiseVessel .stepDone v (doneArg (s.seqs.get v)) s
  match v, occupantOf s v with
  | .mash, some n =>
    withBrew n (fun b => { b with mash := b.mash.map fun m => { m with steps := m.steps + 1 } }) s
  | _, _ => s

/-! ### Transfers (R63 to R66) -/

/-- Whether a transfer out of a vessel is open to a destination (R62). -/
def transferOpenTo (s : State) (v w : Vessel) : Bool :=
  (s.vessels.get v).occupancy == .draining && (s.vessels.get w).occupancy == .filling
    && occupantOf s v == occupantOf s w

/-- The TRANSFER step takes effect: the step lock is set and route and pump are driven on (R65, R78). -/
def transferInEffect (v : Vessel) (step : StepRow) (s : State) : State :=
  let s := withSeq v (fun q => { q with state := .running, phase := .inEffect, blocked := none }) s
  transferOn v step (withVessel v (fun r => { r with stepLock := true }) s)

/-- A transfer opens (R65). -/
def openTransfer (v w : Vessel) (step : StepRow) (s : State) : State :=
  let n := occupantOf s v
  let s := withVessel v (fun r => { r with occupancy := .draining }) s
  let s := withVessel w (fun r => { r with occupancy := .filling, occupant := n }) s
  let s := match n with
    | some n => withBrew n (fun b => { b with occupied := [v, w] }) s
    | none => s
  transferInEffect v step s

/-- A step goes BLOCKED with a reason; its phase stays BEGUN (R64, R112). -/
def blockStep (v : Vessel) (reason : BlockReason) (s : State) : State :=
  withSeq v (fun q => { q with state := .blocked, blocked := some reason }) s

/-! ### Taking effect (R78) -/

/-- The step is in effect, and sets its vessel's step lock if it is flagged LOCK (R37, R78). -/
def inEffect (v : Vessel) (step : StepRow) (f : Sequencer → Sequencer) (s : State) : State :=
  let s := withSeq v (fun q => f { q with state := .running, phase := .inEffect, blocked := none }) s
  if step.lock then withVessel v (fun r => { r with stepLock := true }) s else s

/-- A DRIVE step offers its frame; true when the step completes, its frame taken or its point not valid
(R74, R90). -/
def offerStepFrame (v : Vessel) (step : StepRow) (s : State) : Bool × State :=
  match step.drive with
  | some row =>
    let (r, t) := stepDrive v { row := row, demand := step.value, ofStep := true } s
    (r != .refused, t)
  | none => (true, withSeq v (fun q => { q with noPoint := true }) s)

/-- A step takes effect, no cause holding; true when it completes as it does so (R78, R88, R90). -/
def takeEffect (v : Vessel) (s : State) : Bool × State :=
  match currentStep s v with
  | none => (false, s)
  | some step =>
    match step.kind with
    | .hold =>
      if heated v then (false, inEffect v step (fun q => { q with setpoint := some step.target }) s)
      else (step.hold == 0, inEffect v step (fun q => { q with holdElapsed := 0, holdSince := some s.loopTime }) s)
    | .ramp | .wait | .boil => (false, inEffect v step id s)
    | .drive => offerStepFrame v step (inEffect v step id s)
    | .transfer =>
      match destinationOf v with
      | none => (false, s)
      | some w =>
        if transferOpenTo s v w then (false, transferInEffect v step s)
        else if available s w then (false, openTransfer v w step s)
        else (false, blockStep v .destinationBusy s)
    | .cast =>
      match castAttempt s with
      | (some r, t) => (false, blockStep v (.castRefused r) t)
      | (none, t) => (false, withSeq v (fun q => { q with state := .running, blocked := none }) t)

/-- Takes effect, and while a step completes as it does so, goes on with the next position (R78, R79). A list
has at most 255 positions (5.1). -/
def advance : Nat → Vessel → State → State
  | 0, _, s => s
  | n + 1, v, s =>
    match takeEffect v s with
    | (false, t) => t
    | (true, t) =>
      let t := finishStep v t
      let q := t.seqs.get v
      match q.position, q.list with
      | some pos, some recipe =>
        if pos + 1 < listCount t.tables recipe v then
          let t := beginStep v (pos + 1) t
          if (t.seqs.get v).state = .running then advance n v t else t
        else t
      | _, _ => t

/-- A step begins at a position and, when no cause holds, takes effect at once (R78). -/
def startAt (v : Vessel) (pos : Nat) (s : State) : State :=
  let s := beginStep v pos s
  if (s.seqs.get v).state = .running then advance 256 v s else s

/-- The current step, not a TRANSFER or CAST, completes; the next position begins at once (R79). -/
def completeStep (v : Vessel) (s : State) : State :=
  let s := finishStep v s
  let q := s.seqs.get v
  match q.position, q.list with
  | some pos, some recipe => if pos + 1 < listCount s.tables recipe v then startAt v (pos + 1) s else s
  | _, _ => s

/-! ### The handover (R66) -/

/-- The sequencer becomes IDLE: no list, no position, and the heat demand forced to 0 (5.3, R94). The phase and the
setpoint of the step that has ended stay (DESIGN CHOICE, log 21). -/
def becomeIdle (v : Vessel) (s : State) : State :=
  forceZero v (withVessel v (fun r => { r with stepLock := false })
    (withSeq v (fun q =>
      { q with state := .idle, list := none, position := none, blocked := none, holdSince := none }) s))

/-- The state a brew reaches in a vessel (R54). -/
def brewStateIn : Vessel → BrewState
  | .mash => .mashing
  | .lauter => .lautering
  | .kettle => .boiling
  | .whirlpool => .whirlpool

/-- The brew of a delivered transfer advances by destination, with BREW_STATE, unless it is ABANDONED
(R66, R68). -/
def advanceBrew (n : Nat) (w : Vessel) (s : State) : State :=
  if (brew? s n).any fun b => b.state != .abandoned then changeBrewState n (brewStateIn w) (.vessel w) s else s

/-- A vessel becomes EMPTY with no occupant (R62). -/
def emptyVessel (v : Vessel) (s : State) : State :=
  withVessel v (fun r => { r with occupant := none, occupancy := .empty }) s

/-- The destination becomes RESIDENT with the brew, which occupies it alone, and its sequencer loads the
brew's list for it (R66, R68). -/
def settleIn (n : Nat) (w : Vessel) (s : State) : State :=
  let s := withVessel w (fun r => { r with occupant := some n, occupancy := .resident }) s
  let s := withBrew n (fun b => { b with occupied := [w] }) s
  withSeq w (fun q => { q with list := (brew? s n).map Brew.recipe }) s

/-- The TRANSFER step of a vessel completes: drives off, STEP_DONE, and the handover (R66, R91), whatever the
destination's occupancy has become (DESIGN CHOICE, log 22). -/
def completeTransfer (v : Vessel) (step : StepRow) (s : State) : State :=
  let s := finishStep v (transferOff v step s)
  match occupantOf s v, destinationOf v with
  | some n, some w =>
    let s := advanceBrew n w (settleIn n w (becomeIdle v (emptyVessel v s)))
    if (s.seqs.get w).state = .idle then startAt w 0 s else s
  | _, _ => s

/-! ### Suspension and resumption (R76, R77) -/

/-- The hold timer stops with its elapsed time kept (R76, R88). -/
def Sequencer.stopHold (now : LoopTime) (q : Sequencer) : Sequencer :=
  match q.holdSince with
  | some t => { q with holdElapsed := q.holdElapsed + elapsed now t, holdSince := none }
  | none => q

/-- The unsent offer of a DRIVE step's frame is dropped (R82, R90). -/
def Sequencer.dropStepFrame (q : Sequencer) : Sequencer :=
  { q with unsent := q.unsent.filter fun u => !u.ofStep }

/-- The sequencer enters SUSPENDED from RUNNING or BLOCKED (R76). -/
def suspend (v : Vessel) (s : State) : State :=
  let inTransfer := match currentStep s v with
    | some step => if step.kind = .transfer ∧ (s.seqs.get v).phase = .inEffect then some step else none
    | none => none
  let s := withSeq v (fun q =>
    { (q.stopHold s.loopTime).dropStepFrame with state := .suspended, dtBase := false }) s
  let s := forceZero v s
  match inTransfer with
  | some step => transferOff v step s
  | none => s

/-- The Boil Unit offers when the kettle sequencer leaves SUSPENDED (R103). -/
def leftSuspended (v : Vessel) (s : State) : State := if v = .kettle then boilPump s else s

/-- A BEGUN step tries again to take effect, its blocked reason dropped, and BLOCKED with it (R75, R77). A step that is
BLOCKED again enters BLOCKED, which forces the heat demand to 0 (R94). -/
def retryStep (v : Vessel) (s : State) : State :=
  let pos := (s.seqs.get v).position
  let s := advance 256 v (leaveConds (withSeq v (fun q => { q with state := .running, blocked := none }) s))
  if (s.seqs.get v).state = .blocked ∧ (s.seqs.get v).position = pos then forceZero v s else s

/-- A step in effect resumes (R77). -/
def resumeStep (v : Vessel) (step : StepRow) (s : State) : State :=
  let s := withSeq v (fun q => { q with state := .running }) s
  match step.kind with
  | .transfer => transferOn v step s
  | .hold =>
    if heated v then s else withSeq v (fun q => { q with holdSince := some s.loopTime }) s
  | .drive =>
    match offerStepFrame v step s with
    | (true, t) => completeStep v t
    | (false, t) => t
  | .ramp | .wait | .boil | .cast => s

/-- The last cause of a SUSPENDED sequencer clears (R77): the step's own offers come before that of the kettle's send
queue (DESIGN CHOICE, log 44). -/
def resume (v : Vessel) (s : State) : State :=
  match currentStep s v with
  | none => s
  | some step =>
    leftSuspended v
      (if (s.seqs.get v).phase = .inEffect then resumeStep v step s else retryStep v s)

/-- The causes of a sequencer are brought to what holds: it suspends when a cause joins while it is RUNNING or
BLOCKED, and resumes when the last leaves (R76, R77). -/
def syncCauses (v : Vessel) (s : State) : State :=
  let c := causesNow s v
  let s := withSeq v (fun q => { q with causes := c }) s
  match (s.seqs.get v).state with
  | .running | .blocked => if c.any then suspend v s else s
  | .suspended => if c.any then s else resume v s
  | .idle | .armed | .halted => s

/-- The causes of all four sequencers, in vessel order, and so their suspensions, resumptions and drives (DESIGN CHOICE,
log 48). -/
def syncAllCauses (s : State) : State := vessels.foldl (fun s v => syncCauses v s) s

/-! ### Halts (R82) -/

/-- The end of the current step by a halt (R82): the step's end with the emptying of its hold slots (R49), the
off-drives of a TRANSFER, and for the kettle the halt of the boil (R107), in this order (DESIGN CHOICE, log 42). -/
def haltStep (v : Vessel) (s : State) : State :=
  let step := currentStep s v
  let s := endStep v s
  let s := match step with
    | some st => if st.kind = .transfer then transferOff v st s else s
    | none => s
  match v, occupantOf s v with
  | .kettle, some n => haltSends n (if step.map StepRow.kind = some .boil then haltBoilStep n s else s)
  | _, _ => s

/-- The sequencer becomes HALTED, and the heat demand is forced to 0 (R82, R94). The phase of the step that has ended
stays (DESIGN CHOICE, log 21). -/
def becomeHalted (v : Vessel) (s : State) : State :=
  forceZero v (withSeq v (fun q =>
    { (q.stopHold s.loopTime).dropStepFrame with state := .halted, position := none, blocked := none }) s)

/-- A halt of a vessel's sequencer (R82); a vessel reset leaves an IDLE sequencer IDLE (R75). Out of SUSPENDED the
halt's drives come before the send queue's offer (DESIGN CHOICE, log 44). -/
def halt (v : Vessel) (vesselReset : Bool) (s : State) : State :=
  match (s.seqs.get v).state with
  | .running | .blocked => becomeHalted v (haltStep v s)
  | .suspended => leftSuspended v (becomeHalted v (haltStep v s))
  | .armed => becomeHalted v s
  | .idle => if (s.vessels.get v).occupancy = .filling ∧ vesselReset = false then becomeHalted v s else s
  | .halted => s

/-! ### Starts and CONTINUE (R80, R81, R83) -/

/-- A start is taken: the vessel's hold slots are emptied and position 0 begins (R49, R80). -/
def startList (v : Vessel) (s : State) : State := startAt v 0 (slotsOfVessel v s)

/-- The effect a CONTINUE has (R83), in the order of its codes. -/
inductive ContinueEffect where
  | waitEnded | transferEnded | boil | none
deriving DecidableEq, Repr

/-- A CONTINUE reaches a sequencer (R83). One that ends the kettle's TRANSFER out of SUSPENDED has the head of the send
queue offered after the whole handover (DESIGN CHOICE, log 44). -/
def continueSeq (v : Vessel) (s : State) : ContinueEffect × State :=
  match currentStep s v with
  | none => (.none, s)
  | some step =>
    let inEffect := (s.seqs.get v).phase = .inEffect
    match step.kind with
    | .wait => if inEffect then (.waitEnded, completeStep v s) else (.none, s)
    | .transfer =>
      if inEffect then
        let t := completeTransfer v step s
        (.transferEnded, if (s.seqs.get v).state = .suspended then leftSuspended v t else t)
      else (.none, s)
    | .boil => (.boil, boilContinue s)
    | .hold | .ramp | .drive | .cast => (.none, s)

/-! ### The heating loop (R92) -/

/-- The computation of R92: the integral after it and the demand. -/
def piDemand (kp ki : Nat) (setpoint value integral : Int) (dt : Nat) : Int × Nat :=
  let e := setpoint - value
  let p := Int.tdiv (kp * e) 100
  let dI := Int.tdiv (ki * e * dt) 6000
  let trial := p + Int.tdiv integral 1000 + Int.tdiv dI 1000
  let i := if (1000 < trial ∧ 0 < dI) ∨ (trial < 0 ∧ dI < 0) then integral
    else clampInt (integral + dI) 0 1000000
  (i, (clampInt (p + i / 1000) 0 1000).toNat)

/-- The setpoint and remainder of a RAMP after a sample (R86). -/
def rampMove (setpoint : Option Int) (remainder rate dt : Nat) (target value : Int) : Int × Nat :=
  match setpoint with
  | none => (value, remainder)
  | some sp =>
    if sp = target then (sp, remainder)
    else
      let total := remainder + rate * dt
      let move : Int := (total / 60000 : Nat)
      (if sp < target then min target (sp + move) else max target (sp - move), total % 60000)

/-- Whether a value lies within a step's tolerance of its target (R86, R87). -/
def within (step : StepRow) (value : Int) : Bool := decide ((value - step.target).natAbs ≤ step.tolerance)

/-- Whether the step after the current one forces the heat demand to 0 at its beginning (R92, R98). -/
def nextForcesZero (s : State) (v : Vessel) : Bool :=
  let q := s.seqs.get v
  match q.position, q.list with
  | some pos, some recipe =>
    decide (pos + 1 < listCount s.tables recipe v)
      && (stepRow s.tables (listRow s.tables recipe v (pos + 1))).kind.forcesZero
  | _, _ => false

/-- The demand of a sample is offered unless the sample completes the step and the next forces it to 0, and
then the step completes if the sample completes it (R92, R98). -/
def offerAndComplete (v : Vessel) (d : Nat) (done : Bool) (s : State) : State :=
  let s := if done && nextForcesZero s v then s else heatDemand v d s
  if done then completeStep v s else s

/-- The heating computation of a sample (R92). -/
def heatCompute (v : Vessel) (setpoint value : Int) (dt : Nat) (s : State) : Nat × State :=
  let row := vesselRow s.tables v
  let (i, d) := piDemand row.kp row.ki setpoint value (s.seqs.get v).integral dt
  (d, withSeq v (fun q => { q with integral := i }) s)

/-- A sample of a RUNNING RAMP (R86). -/
def rampSample (v : Vessel) (step : StepRow) (value : Int) (dt : Nat) (s : State) : State :=
  let q := s.seqs.get v
  let (sp, rem) := rampMove q.setpoint q.rampRemainder step.rate dt step.target value
  let s := withSeq v (fun q => { q with setpoint := some sp, rampRemainder := rem }) s
  let (d, s) := heatCompute v sp value dt s
  offerAndComplete v d (sp == step.target && within step value) s

/-- The mash record after a sample of a HOLD on the mashing vessel (R87). -/
def MashRecord.hold (rest deviation : Nat) (m : MashRecord) : MashRecord :=
  { m with rest := m.rest + rest, deviation := max m.deviation deviation }

/-- A sample of a RUNNING HOLD on a vessel with a heat point (R87). -/
def holdSample (v : Vessel) (step : StepRow) (value : Int) (previous : Option Int) (dt : Nat) (s : State) :
    State :=
  let add := if previous.any (within step) then dt else 0
  let on := (s.seqs.get v).onTemperature || within step value
  let s := withSeq v (fun q => { q with restClock := q.restClock + add, onTemperature := on }) s
  let s := match v, occupantOf s v with
    | .mash, some n =>
      let dev := if on then (value - step.target).natAbs else 0
      withBrew n (fun b => { b with mash := b.mash.map (MashRecord.hold add dev) }) s
    | _, _ => s
  let (d, s) := heatCompute v step.target value dt s
  offerAndComplete v d (decide (step.hold * 1000 ≤ (s.seqs.get v).restClock)) s

/-- A sample of a RUNNING BOIL step: the five stages of R98. -/
def boilSample (step : StepRow) (value : Int) (previous : Option Int) (dt : Nat) (s : State) : State :=
  match occupantBrew? s .kettle with
  | none => s
  | some b =>
    let s := boilStages b value previous dt s
    let done := boilTargetReached s b
    let s := if done && nextForcesZero s .kettle then s
      else heatDemand .kettle (boilHeat s b step value) s
    if done then completeStep .kettle (completeBoil b s) else s

/-- The work of a sample of a RUNNING sequencer, by its step (5.6). The dt base becomes present (R85). -/
def workSample (v : Vessel) (e : PointEntry) (s : State) : State :=
  match currentStep s v, e.current with
  | some step, some now =>
    let dt := if (s.seqs.get v).dtBase then e.interval.getD 0 else 0
    let s := withSeq v (fun q => { q with dtBase := true }) s
    let previous := e.previous.map Reading.value
    match step.kind with
    | .ramp => if heated v then rampSample v step now.value dt s else s
    | .hold => if heated v then holdSample v step now.value previous dt s else s
    | .boil => boilSample step now.value previous dt s
    | .wait | .drive | .transfer | .cast => s
  | _, _ => s

/-! ### Deliveries and timers -/

/-- An accepted sample of a vessel's temperature point (R30, R85, R103): it ends the STALE cause, for the kettle
offers the head of the send queue, and is worked while the sequencer is RUNNING, in this order (DESIGN CHOICE,
log 46). -/
def pvSample (v : Vessel) (row : Nat) (s : State) : State :=
  let s := syncCauses v s
  let s := if v = .kettle then boilPump s else s
  if (s.seqs.get v).state = .running then workSample v (entryOf s row) s else s

/-- An accepted sample of a vessel's level point (R91, R122): it may complete a RUNNING TRANSFER step, and the
whirlpool's is handed to the Cast Meter. -/
def levelSample (v : Vessel) (row : Nat) (s : State) : State :=
  let value := valueOf s row
  let q := s.seqs.get v
  let s := match currentStep s v with
    | some step =>
      if step.kind = .transfer ∧ q.phase = .inEffect ∧ q.state = .running
          ∧ value ≤ ((vesselRow s.tables v).emptyLevel : Int) then completeTransfer v step s
      else s
    | none => s
  if v = .whirlpool then castLevel value s else s

/-- A stale expiry of a vessel's temperature point (R76, R85, R94): the zero is forced once, by the suspension
or by the delivery. -/
def pvExpiry (v : Vessel) (s : State) : State :=
  let s := withSeq v (fun q => { q with dtBase := false }) s
  match (s.seqs.get v).state with
  | .running | .blocked => syncCauses v s
  | .idle | .armed | .suspended | .halted => forceZero v (syncCauses v s)

/-- The hold timer's elapsed time (R88). -/
def holdTime (s : State) (v : Vessel) : Nat := ((s.seqs.get v).stopHold s.loopTime).holdElapsed

/-- Whether the hold timer of a HOLD on a vessel with no heat point has reached its hold (R88). -/
def holdDue (s : State) (v : Vessel) : Bool :=
  match currentStep s v with
  | some step =>
    step.kind == .hold && !heated v && (s.seqs.get v).phase == .inEffect
      && (s.seqs.get v).state == .running && (s.seqs.get v).holdSince.isSome
      && decide (step.hold * 1000 ≤ holdTime s v)
  | none => false

/-- Whether the vessel's refresh timer has run out (R93). -/
def refreshDue (s : State) (v : Vessel) : Bool :=
  timerDue s.loopTime (s.seqs.get v).refreshTimer (vesselRow s.tables v).refresh

/-- Whether a point row is a drive or route point of the TRANSFER step in effect (R74). -/
def transferNames (s : State) (v : Vessel) (row : Nat) : Bool :=
  match currentStep s v with
  | some step =>
    step.kind == .transfer && (s.seqs.get v).phase == .inEffect
      && (step.drive == some row || step.route == some row)
  | none => false

/-- An unsent offer is offered again (R93); true when it was the frame of the current DRIVE step and the step
completes (R74, R90). -/
def reofferUnsent (v : Vessel) (u : UnsentOffer) (s : State) : Bool × State :=
  let (r, t) := if u.ofStep || transferNames s v u.row then stepDrive v u s else seqOffer v u s
  (u.ofStep && r != .refused, t)

/-- Every offer of a list is offered again, the oldest refusal first (DESIGN CHOICE, log 44); true when the current
DRIVE step completes. -/
def reofferAll (v : Vessel) (l : List UnsentOffer) (s : State) : Bool × State :=
  l.foldl (fun a u => let (done, t) := reofferUnsent v u a.2; (a.1 || done, t)) (false, s)

/-- The refresh timer runs out (R93, R103): it restarts; a RUNNING heating step's last demand and every unsent offer
are offered again, in this order, then the head of the kettle's send queue; a DRIVE step whose frame was taken completes
after them (DESIGN CHOICE, log 44). A forced zero is no demand to refresh; one that was refused is offered again as every
unsent offer (R94; DEDUCED, log 45). -/
def refreshExpiry (v : Vessel) (s : State) : State :=
  let s := withSeq v (fun q => { q with refreshTimer := some s.loopTime }) s
  let heating := heatingStep s v && !(s.seqs.get v).zeroForced
  let kept := (s.seqs.get v).unsent
  let s := if heating then offerHeat v (s.seqs.get v).lastDemand s else s
  let others := if heating then kept.filter fun u => some u.row != heatRow? s.tables v else kept
  let (done, s) := reofferAll v others s
  let s := if v = .kettle then boilPump s else s
  if done then completeStep v s else s

/-- The end of each command of a block's reaction: the insertion queue's notices reach the Boil Unit and the
Pitch Unit (R14). A notice can make the unit offer its next frame, and so on. -/
def drainTells : Nat → State → State
  | 0, s => s
  | n + 1, s =>
    match s.tells with
    | [] => s
    | o :: rest =>
      let s := { s with tells := rest }
      drainTells n
        (match o with
        | .boilUnit => boilFrameLeft s
        | .pitchUnit c => doseFrameLeft c s
        | .agent | .guardUnit | .sequencer _ | .castMeter => s)

/-- The blocks settle: notices delivered, refresh timers run or stopped, conditions brought to their causes. No
notice outlives its command: a command leaves far fewer than 64, and the reports of conditions give none. -/
def settle (s : State) : State :=
  { syncConditions (vessels.foldl refreshSync (drainTells 64 s)) with tells := [] }

end Sys2Proof.Machine
end

