-- ==== Sys2Proof/Machine/Authority.lean ====
section
/-! DEFINITION. Authority: its changes, the panel's notices, ESTOP, the supervisor locks, and the requests on hold
slots (R35 to R42, R46 to R48). -/

namespace Sys2Proof.Machine

/-- The cause of an authority change, in the order of R35. -/
inductive AuthorityCause where
  | panelHand | panelAuto | panelEstop | supervisorHand | supervisorAuto
deriving DecidableEq, Repr

def authorityCauseCode : AuthorityCause → Nat
  | .panelHand => 0
  | .panelAuto => 1
  | .panelEstop => 2
  | .supervisorHand => 3
  | .supervisorAuto => 4

/-- Whether a vessel is locked (3.1). -/
def VesselRec.locked (r : VesselRec) : Bool := r.supervisorLock || r.stepLock

/-- The authority is replaced and AUTHORITY_CHANGED raised: the first effect of R35. -/
def putAuthority (v : Vessel) (a : Authority) (cause : AuthorityCause) (s : State) : State :=
  raiseVessel .authorityChanged v (.num (authorityCauseCode cause))
    (withVessel v (fun r => { r with authority := a }) s)

/-- The Cast Meter is told of the whirlpool's authority (R35, R120), and a change to AUTO is a moment at which a
stroke is tried (R131), after the on-drive of the pump of a cast that resumes (DESIGN CHOICE, log 49). -/
def tellCast (v : Vessel) (a : Authority) (s : State) : State :=
  if v = .whirlpool then
    let s := reviewPauses s
    if a = .auto then tryIssue s else s
  else s

/-- A change of authority with its three effects (R35); none when the vessel already has it. -/
def changeAuthority (v : Vessel) (a : Authority) (cause : AuthorityCause) (s : State) : State :=
  if (s.vessels.get v).authority = a then s
  else
    let s := tellCast v a (syncCauses v (putAuthority v a cause s))
    if a = .hand then slotsOfVessel v s else s

/-- A HAND_REQUEST notice from a PANEL row (R38). -/
def handRequest (v : Vessel) (row : Nat) (s : State) : State :=
  let r := s.vessels.get v
  if r.authority = .hand then s
  else if r.locked then raiseVessel .panelRefused v (.num row) s
  else changeAuthority v .hand .panelHand s

/-- An AUTO_REQUEST notice (R39). -/
def autoRequest (v : Vessel) (s : State) : State := changeAuthority v .auto .panelAuto s

/-- An ESTOP notice (R42): the vessel goes to HAND, its slots are emptied, the cast of the whirlpool ends, and
the sequencer halts. The cast's end trigger is taken before the pause cause of the new authority (log 23), and the
halt before the HAND cause (DESIGN CHOICE, log 41). -/
def estop (v : Vessel) (s : State) : State :=
  let s := if (s.vessels.get v).authority = .auto then
      slotsOfVessel v (putAuthority v .hand .panelEstop s)
    else s
  let s := if v = .whirlpool then endTrigger .estop s else s
  tellCast v .hand (syncCauses v (halt v false s))

/-- The supervisor locks of a set of vessels are set or cleared (R41). -/
def setLocks (mask : List Vessel) (on : Bool) (s : State) : State :=
  mask.foldl (fun s v => withVessel v (fun r => { r with supervisorLock := on }) s) s

/-- A held frame as it is released: the hop count raised by one (R46). -/
def Hold.released (h : Hold) : Frame := { h.frame with hop := h.frame.hop + 1 }

/-- The hold slot's timer runs out (R48). -/
def holdSlotDue (s : State) (slot : Nat) : Bool :=
  match slotHold s slot with
  | some h => decide (30000 ≤ elapsed s.loopTime h.time)
  | none => false

/-- The expiry of a holding slot: the frame is lost, with HELD_EXPIRED (R48). -/
def expireSlot (slot : Nat) (s : State) : State :=
  match slotHold s slot with
  | some h => raiseVessel .heldExpired h.vessel (.num slot) (freeSlot slot s)
  | none => s

end Sys2Proof.Machine
end

