-- ==== Sys2Proof/Machine/Brews.lean ====
section
/-! DEFINITION. The Brew Manager: opening, placing, abandoning and releasing brews, clearing vessels, and the rows a
brew holds in use (chapter 4). -/

namespace Sys2Proof.Machine

/-! ### Opening (R55, R56) -/

/-- The fields BREW_OPEN carries (R55). -/
structure BrewFields where
  number    : Nat
  recipe    : Nat
  fermenter : Nat
  strain    : Nat
  override  : Nat
  gravity   : GravityPolicy
  lag       : LagPolicy
deriving DecidableEq, Repr

/-- The Step Table rows of a recipe's list for a vessel, in order (R71). -/
def stepRows (t : Tables) (recipe : Nat) (v : Vessel) : List Nat :=
  (List.range (listCount t recipe v)).map (listRow t recipe v)

/-- The Addition Table rows of a recipe's list, in order (R71). -/
def additionRows (t : Tables) (recipe : Nat) : List Nat :=
  (List.range (recipeRow t recipe).addCount).map (additionListRow t recipe)

/-- Check 3 of R55: the recipe and every row of its lists valid. -/
def recipeUsable (t : Tables) (recipe : Nat) : Bool :=
  recipeValid t recipe && vessels.all (fun v => (stepRows t recipe v).all (stepValid t))
    && (additionRows t recipe).all (additionValid t)

/-- A brew as it is opened (R55). -/
def newBrew (f : BrewFields) : Brew :=
  { number := f.number, recipe := f.recipe, fermenter := f.fermenter, strain := f.strain
    override := f.override, gravity := f.gravity, lag := f.lag, state := .opened, occupied := []
    mash := none, boil := none, castNo := none }

/-- BREW_OPEN past its ranges: the four checks in order, then the brew in the lowest free row (R52, R55). -/
def openBrew (f : BrewFields) (s : State) : Result × Option Nat × State :=
  if (brewRow? s f.number).isSome then (.duplicate, none, s)
  else
    match s.brews.findIdx? Option.isNone with
    | none => (.tableFull, none, s)
    | some row =>
      if !recipeUsable s.tables f.recipe then (.recipeInvalid, none, s)
      else if f.strain ≠ 0 ∧ strainValid s.tables (f.strain - 1) = false then (.strainInvalid, none, s)
      else
        let s := { s with brews := s.brews.set row (some (newBrew f)) }
        (.ok, some row,
          raise .brewState .none (some f.number) (.num (brewStateCode .opened)) s)

/-! ### Placing and abandoning (R57, R58) -/

/-- BREW_ASSIGN (R57). -/
def assignBrew (n : Nat) (s : State) : Result × State :=
  match brew? s n with
  | none => (.notFound, s)
  | some b =>
    if b.state ≠ .opened then (.busy, s)
    else if !available s .mash then (.vesselBusy, s)
    else
      let s := withVessel .mash (fun r => { r with occupant := some n, occupancy := .resident }) s
      let s := withBrew n (fun b =>
        { b with occupied := [.mash], mash := some { steps := 0, rest := 0, deviation := 0 } }) s
      let s := withSeq .mash (fun q => { q with list := some b.recipe, state := .armed }) s
      (.ok, syncCauses .mash (changeBrewState n .mashing (.vessel .mash) s))

/-- The last vessel a brew occupied, or none (R54, log 29). -/
def lastVessel (b : Brew) : Subject :=
  match b.occupied.getLast? with
  | some v => .vessel v
  | none => .none

/-- BREW_ABANDON (R58): the halts in the order of the occupied vessels, the cast's end trigger, BREW_STATE. -/
def abandonBrew (n : Nat) (s : State) : Result × State :=
  match brew? s n with
  | none => (.notFound, s)
  | some b =>
    if b.state = .cast ∨ b.state = .abandoned then (.busy, s)
    else
      let s := b.occupied.foldl (fun s v => halt v false s) s
      let s := if b.state = .casting then endTrigger .abandon s else s
      (.ok, changeBrewState n .abandoned (lastVessel b) s)

/-- BREW_RELEASE (R59). The brew's entries of the send queue go with its row, unrecorded (R103, log 39). -/
def releaseBrew (n : Nat) (s : State) : Result × State :=
  match brewRow? s n, brew? s n with
  | some row, some b =>
    if (b.state = .cast ∨ b.state = .abandoned) ∧ b.occupied = [] then
      (.ok, dropSends n { s with brews := s.brews.set row none })
    else (.busy, s)
  | _, _ => (.notFound, s)

/-! ### Clearing a vessel (R68) -/

/-- A vessel leaves its brew's occupied list; a brew left with none becomes ABANDONED unless it is (R68). -/
def leaveVessel (n : Nat) (v : Vessel) (s : State) : State :=
  let s := withBrew n (fun b => { b with occupied := b.occupied.filter fun w => w != v }) s
  if (brew? s n).any fun b => b.occupied.isEmpty && b.state != .abandoned then
    changeBrewState n .abandoned (.vessel v) s
  else s

/-- A destination that takes a brew by VESSEL_CLEAR: an IDLE sequencer becomes ARMED, a HALTED one stays. -/
def armIfIdle (w : Vessel) (s : State) : State :=
  withSeq w (fun q => if q.state = .idle then { q with state := .armed } else q) s

/-- Whether the source of a FILLING vessel is HALTED. -/
def sourceHalted (s : State) (v : Vessel) : Bool :=
  match sourceOf v with
  | some u => (s.seqs.get u).state == .halted
  | none => false

/-- The vessel is cleared: EMPTY with no occupant, its sequencer IDLE (R68). The heat demand is forced to 0 for one that
was IDLE already, too (DESIGN CHOICE, log 25). -/
def clearOut (v : Vessel) (s : State) : State := becomeIdle v (emptyVessel v s)

/-- A DRAINING source is cleared, with the wort counted as delivered (R68). -/
def clearSource (v w : Vessel) (n : Nat) (s : State) : State :=
  armIfIdle w (advanceBrew n w (settleIn n w (clearOut v s)))

/-- A FILLING destination is cleared, with the wort counted as still in the source (R68, log 22). -/
def clearDestination (v u : Vessel) (n : Nat) (s : State) : State :=
  withBrew n (fun b => { b with occupied := [u] })
    (withVessel u (fun r => { r with occupancy := .resident }) (clearOut v s))

/-- VESSEL_CLEAR (R68). -/
def clearVessel (v : Vessel) (s : State) : Result × State :=
  let q := (s.seqs.get v).state
  let halted := q = .halted
  match (s.vessels.get v).occupancy, occupantOf s v with
  | .empty, _ => (.ok, s)
  | .resident, some n =>
    if (v = .whirlpool ∧ castOpen s = true) ∨ ¬ halted then (.busy, s)
    else (.ok, syncCauses v (leaveVessel n v (clearOut v s)))
  | .draining, some n =>
    match destinationOf v with
    | some w => if halted then (.ok, syncCauses w (clearSource v w n s)) else (.busy, s)
    | none => (.busy, s)
  | .filling, some n =>
    match sourceOf v with
    | some u =>
      if v = .whirlpool ∧ castOpen s = true then (.busy, s)
      else if halted ∨ (q = .idle ∧ sourceHalted s v = true) then (.ok, clearDestination v u n s) else (.busy, s)
    | none => (.busy, s)
  | .resident, none | .draining, none | .filling, none => (.busy, s)

/-! ### Rows in use (R56) -/

/-- Whether a brew holds its rows (R56): from OPEN to CASTING, and ABANDONED until its cast closes. -/
def holdsRows (s : State) (b : Brew) : Bool :=
  match b.state with
  | .opened | .mashing | .lautering | .boiling | .whirlpool | .casting => true
  | .cast => false
  | .abandoned => s.castMeter.record.any fun c => c.brew == b.number && b.castNo == some c.number && c.state != .closed

/-- The brews that hold rows in use. -/
def holders (s : State) : List Brew := s.brews.filterMap fun b => b.filter (holdsRows s)

/-! ### The vessel reset -/

/-- RESET(VESSELS) (R75, R49, R121, R184): the halts in vessel order, then the slots that still hold, then the cast
(DESIGN CHOICE, log 42). -/
def resetVessels (s : State) : State :=
  let s := vessels.foldl (fun s v => halt v true s) s
  endTrigger .vesselReset (emptySlots (fun _ => true) s)

end Sys2Proof.Machine
end

