-- ==== Sys2Proof/Machine/Tables.lean ====
section
/-! DEFINITION. The tables through the window: ranges, rows in use, validation and invalidation, the table window,
TABLE_WRITE and TABLE_READ (R19, R60, R61, R72, R73, R95, R109, R110, R127, R146 to R148, R174 to R176). -/

namespace Sys2Proof.Machine

/-! ### The ten tables (R174) -/

/-- The rows of a table 0 to 9. -/
def tableRows : Nat → Nat
  | 0 => 128
  | 1 => 4
  | 2 => 16
  | 3 => 128
  | 4 => 64
  | 5 => 1
  | 6 => 32
  | 7 => 12
  | _ => 13

/-- The fields of a table 0 to 9; the last is VALID. -/
def tableFields : Nat → Nat
  | 0 => 9
  | 1 => 11
  | 2 => 14
  | 3 => 10
  | 4 => 5
  | 5 => 11
  | 6 => 2
  | 7 => 6
  | _ => 5

/-- The field of VALID in a table. -/
def validField (table : Nat) : Nat := tableFields table - 1

/-- The cells of a loadable table 0 to 8. -/
def Tables.get (t : Tables) : Nat → List (List Cell)
  | 0 => t.point
  | 1 => t.vessel
  | 2 => t.recipe
  | 3 => t.step
  | 4 => t.addition
  | 5 => t.line
  | 6 => t.correction
  | 7 => t.strain
  | _ => t.tariff

/-- The tables with one loadable table replaced. -/
def Tables.put (t : Tables) (n : Nat) (c : List (List Cell)) : Tables :=
  match n with
  | 0 => { t with point := c }
  | 1 => { t with vessel := c }
  | 2 => { t with recipe := c }
  | 3 => { t with step := c }
  | 4 => { t with addition := c }
  | 5 => { t with line := c }
  | 6 => { t with correction := c }
  | 7 => { t with strain := c }
  | _ => { t with tariff := c }

def Tables.write (t : Tables) (n row field : Nat) (c : Cell) : Tables :=
  t.put n (setCell (t.get n) row field c)

/-- Whether a tariff is in force, in ACTIVE and CHANGING (R148). -/
def Duty.inForce (d : Duty) : Bool := d.tariff == .active || d.tariff == .changing

/-- A cell of table 9, the Active Tariff (R148, R174). -/
def activeCell (d : Duty) (row field : Nat) : Cell :=
  if d.inForce then
    let pair := fun (p : Nat × Nat) => match field with
      | 0 => BitVec.ofNat 32 p.1
      | 1 => BitVec.ofNat 32 p.2
      | 4 => 1
      | _ => 0
    if row = 0 then
      match field with
      | 0 => BitVec.ofNat 32 d.active.allowance
      | 1 => BitVec.ofNat 32 d.active.bandCount
      | 2 => BitVec.ofNat 32 d.active.tierCount
      | 3 => d.activeSeq
      | _ => 1
    else if row ≤ 8 then pair (d.active.bands.getD (row - 1) (0, 0))
    else pair (d.active.tiers.getD (row - 9) (0, 0))
  else 0

/-- A cell as the window reads it: the VALID cells of table 8 read as its header's (R146, R176). -/
def readCell (s : State) (table row field : Nat) : Cell :=
  if table = 9 then activeCell s.duty row field
  else if table = 8 ∧ field = 4 then cellAt s.tables.tariff 0 4
  else cellAt (s.tables.get table) row field

/-! ### Ranges -/

/-- What a cell may hold: a run of numbers, a run of signed numbers, or a Point Table row or NONE (R174). -/
inductive CellRange where
  | nat (lo hi : Nat)
  | int (lo hi : Int)
  | pointOrNone
deriving DecidableEq, Repr

def CellRange.holds (r : CellRange) (c : Cell) : Bool :=
  match r with
  | .nat lo hi => decide (lo ≤ c.toNat ∧ c.toNat ≤ hi)
  | .int lo hi => decide (lo ≤ c.toInt ∧ c.toInt ≤ hi)
  | .pointOrNone => decide (c.toNat ≤ 127) || c.toNat == 255

/-- Any 32 bits. -/
def CellRange.any : CellRange := .nat 0 4294967295

/-- A point reference that cannot be NONE. -/
def CellRange.point : CellRange := .nat 0 127

/-- A flag, VALID among them. -/
def CellRange.flag : CellRange := .nat 0 1

/-- An unused cell takes 0 alone (R174). -/
def CellRange.unused : CellRange := .nat 0 0

/-- The ranges of the fields of a row, in field order (2.1, 4.4, 5.1, 5.2, 6.1, 7.1, 7.2, 8.1, 9.4). A correction
factor's cell takes any 32 bits, and its range is tested at validation (R110, log 32). -/
def fieldRanges (table row : Nat) : List CellRange :=
  match table with
  | 0 => [.nat 1 254, .nat 0 15, .nat 0 9, .nat 0 5, .int (-2147483648) 2147483647,
          .int (-2000000) 2000000, .nat 100 10000, .flag, .flag]
  | 1 => [.point, .pointOrNone, .point, .nat 0 500000, .point, .nat 0 2000, .nat 0 2000, .nat 0 50,
          .nat 250 5000, .nat 0 3, .flag]
  | 2 => [.nat 0 127, .nat 1 255, .nat 0 127, .nat 1 255, .nat 0 127, .nat 1 255, .nat 0 127, .nat 1 255,
          .nat 8000 11000, .nat 600 10800, .nat 0 63, .nat 0 64, .nat 0 1000, .flag]
  | 3 => [.nat 0 6, .int (-5000) 15000, .nat 1 500, .nat 10 500, .nat 0 14400, .pointOrNone, .nat 0 1000,
          .pointOrNone, .flag, .flag]
  | 4 => [.nat 0 10800, .point, .nat 1 1000, .nat 0 1, .flag]
  | 5 => [.point, .point, .point, .point, .point, .nat 100 100000, .nat 1 200000, .nat 500 10000,
          .nat 200 10000, .nat 1 8, .flag]
  | 6 => [.any, .flag]
  | 7 => [.nat 100 4000, .nat 100 5000, .nat 500 1000, .nat 1000 500000, .nat 2 200, .flag]
  | _ =>
    if row = 0 then [.nat 0 100000, .nat 1 8, .nat 1 4, .unused, .flag]
    else if row ≤ 8 then [.nat 0 40000, .nat 1 100000, .unused, .unused, .flag]
    else [.any, .nat 0 1000000, .unused, .unused, .flag]

/-- Whether a value lies in the range of a field. -/
def inRange (table row field : Nat) (c : Cell) : Bool :=
  ((fieldRanges table row).getD field .unused).holds c

/-- Whether the cell a row holds at a field lies in the field's range. -/
def fieldOk (t : Tables) (table row field : Nat) : Bool :=
  inRange table row field (cellAt (t.get table) row field)

/-- Whether the cells of a row at some fields lie in their ranges. -/
def fieldsOk (t : Tables) (table row : Nat) (fields : List Nat) : Bool := fields.all (fieldOk t table row)

/-! ### Validation -/

/-- Whether a row is a valid point of a kind and binding. -/
def pointIs (t : Tables) (row : Nat) (kind : PointKind) (b : Binding) : Bool :=
  (point? t row).any fun p => p.kind == kind && p.binding == b

/-- Whether a row is a valid point of one of some kinds. -/
def pointOfKind (t : Tables) (row : Nat) (kinds : List PointKind) : Bool :=
  (point? t row).any fun p => kinds.contains p.kind

/-- The checks of a Point Table row (R19). -/
def pointChecks (t : Tables) (address : Byte) (row : Nat) : Bool :=
  let p := pointRow t row
  fieldsOk t 0 row (List.range 8) && p.station != address.toNat
    && (List.range 128).all (fun r => r == row || !(pointValid t r
        && natCell t.point r 0 == p.station && natCell t.point r 1 == p.channel))
    && (match p.kind with
        | .panel => match p.binding with
          | .vessel _ => true
          | .line | .unbound => false
        | .doseDrive => p.binding == .line
        | .temperature | .gravity | .level | .flowCount | .heatDrive | .pumpDrive | .valveDrive
        | .additionDrive => true)
    && (match p.kind with
        | .temperature | .gravity | .level => true
        | .flowCount | .heatDrive | .pumpDrive | .valveDrive | .doseDrive | .additionDrive | .panel =>
          p.gain == 0 && p.offset == 0)
    && (!p.owned || (p.kind.isDrive && p.binding != .unbound))

/-- The checks of a Vessel Table row (R60). -/
def vesselChecks (t : Tables) (v : Vessel) : Bool :=
  let r := vesselRow t v
  fieldsOk t 1 (vesselNumber v) (List.range 10)
    && pointIs t r.pv .temperature (.vessel v)
    && (if heated v then r.heat.any fun h => pointIs t h .heatDrive (.vessel v) else r.heat.isNone)
    && pointIs t r.level .level (.vessel v) && pointIs t r.panel .panel (.vessel v)

/-- The kinds a list's positions before the last may hold (R72). -/
def innerKinds : Vessel → List StepKind
  | .mash => [.hold, .ramp, .wait, .drive]
  | .lauter => [.hold, .wait, .drive]
  | .kettle => [.hold, .ramp, .wait, .drive, .boil]
  | .whirlpool => [.hold, .wait, .drive]

/-- The kind a list's last position holds (R72). -/
def lastKind : Vessel → StepKind
  | .mash | .lauter | .kettle => .transfer
  | .whirlpool => .cast

/-- Whether a point row's binding suits a step of a vessel's list (R72), valid or not (DESIGN CHOICE, log 43);
a point bound NONE suits no list (against R20, log 47). -/
def boundFor (t : Tables) (v : Vessel) (row : Nat) : Bool :=
  let b := (pointRow t row).binding
  b == .vessel v || (v == .whirlpool && b == .line)

/-- Whether the points of a DRIVE or TRANSFER step are bound to the list's vessel (R72). A DRIVE step uses
no route point (R73). -/
def stepBound (t : Tables) (v : Vessel) (st : StepRow) : Bool :=
  match st.kind with
  | .drive => st.drive.all (boundFor t v)
  | .transfer => st.drive.all (boundFor t v) && st.route.all (boundFor t v)
  | .hold | .ramp | .wait | .boil | .cast => true

/-- The checks of one step list of a recipe (R72). -/
def listChecks (t : Tables) (recipe : Nat) (v : Vessel) : Bool :=
  let rows := stepRows t recipe v
  let steps := rows.map (stepRow t)
  let kinds := steps.map StepRow.kind
  rows.all (stepValid t) && kinds.getLast? == some (lastKind v)
    && kinds.dropLast.all (fun k => (innerKinds v).contains k)
    && (v != .kettle || kinds.count .boil == 1) && steps.all (stepBound t v)

/-- Whether no mark of a list is below the one before it (R95). -/
def ascendingMarks : List Nat → Bool
  | a :: b :: rest => decide (a ≤ b) && ascendingMarks (b :: rest)
  | [_] | [] => true

/-- The checks of a recipe's addition list (R95). -/
def additionChecks (t : Tables) (recipe : Nat) : Bool :=
  let rows := additionRows t recipe
  let marks := rows.map fun r => (additionRow t r).mark
  rows.all (additionValid t) && ascendingMarks marks
    && marks.getLast?.all fun m => decide (m ≤ (recipeRow t recipe).target)

/-- The checks of a Recipe Table row (R72). -/
def recipeChecks (t : Tables) (recipe : Nat) : Bool :=
  fieldsOk t 2 recipe (List.range 13) && vessels.all (listChecks t recipe) && additionChecks t recipe

/-- The checks of a Step Table row, by its kind (R73). -/
def stepChecks (t : Tables) (row : Nat) : Bool :=
  let st := stepRow t row
  fieldOk t 3 row 0
    && match st.kind with
      | .hold => fieldsOk t 3 row [1, 3, 4]
      | .ramp => fieldsOk t 3 row [1, 2, 3]
      | .wait => true
      | .drive =>
        st.drive.any (fun p => pointOfKind t p [.pumpDrive, .valveDrive, .additionDrive]) && fieldOk t 3 row 6
      | .transfer =>
        st.drive.any (fun p => pointOfKind t p [.pumpDrive]) && fieldOk t 3 row 6 && decide (1 ≤ st.value)
          && st.route.all (fun p => pointOfKind t p [.valveDrive]) && st.lock
      | .boil => fieldOk t 3 row 6
      | .cast => st.lock

/-- The checks of an Addition Table row (R95), its point bound to the kettle (DESIGN CHOICE against R20, log 47). -/
def additionRowChecks (t : Tables) (row : Nat) : Bool :=
  fieldsOk t 4 row (List.range 4) && pointIs t (additionRow t row).point .additionDrive (.vessel .kettle)

/-- The checks of the Line Table row (R109). -/
def lineChecks (t : Tables) : Bool :=
  let l := lineRow t
  fieldsOk t 5 0 (List.range 10) && pointIs t l.flow .flowCount .line
    && pointIs t l.temperature .temperature .line && pointIs t l.gravity .gravity .line
    && pointIs t l.pump .pumpDrive .line && pointIs t l.dose .doseDrive .line

/-- The check of a Correction Table row (R110). -/
def correctionChecks (t : Tables) (row : Nat) : Bool :=
  decide (990000 ≤ natCell t.correction row 0 ∧ natCell t.correction row 0 ≤ 1010000)

/-- Whether numbers ascend strictly (R147). -/
def strictlyAscending : List Nat → Bool
  | a :: b :: rest => decide (a < b) && strictlyAscending (b :: rest)
  | [_] | [] => true

/-- The checks of the pending bank (R147). -/
def bankChecks (t : Tables) : Bool :=
  let i := bankImage t
  fieldsOk t 8 0 [0, 1, 2]
    && (List.range i.bandCount).all (fun k => fieldOk t 8 (1 + k) 1)
    && strictlyAscending ((i.bands.take i.bandCount).map Prod.fst)
    && (List.range i.tierCount).all (fun k => fieldOk t 8 (9 + k) 1)
    && strictlyAscending ((i.tiers.take (i.tierCount - 1)).map Prod.fst)

/-- The checks of a row of a table 0 to 7; the pending bank is checked as a whole. -/
def rowChecks (s : State) (table row : Nat) : Bool :=
  match table with
  | 0 => pointChecks s.tables s.stationAddress row
  | 1 => (vesselOf row).any (vesselChecks s.tables)
  | 2 => recipeChecks s.tables row
  | 3 => stepChecks s.tables row
  | 4 => additionRowChecks s.tables row
  | 5 => lineChecks s.tables
  | 6 => correctionChecks s.tables row
  | 7 => fieldsOk s.tables 7 row (List.range 5)
  | _ => bankChecks s.tables

/-! ### Rows in use (R175) -/

/-- The points a Vessel Table row names. -/
def VesselRow.points (r : VesselRow) : List Nat := [r.pv, r.level, r.panel] ++ r.heat.toList

/-- The points the Line Table row names. -/
def LineRow.points (r : LineRow) : List Nat := [r.flow, r.temperature, r.gravity, r.pump, r.dose]

/-- Whether a Vessel Table row is in use (R60). -/
def vesselInUse (s : State) (v : Vessel) : Bool := (s.vessels.get v).occupancy != .empty

/-- Whether a row is in use under the rules of its table (R175). -/
def rowInUse (s : State) (table row : Nat) : Bool :=
  match table with
  | 0 =>
    vessels.any (fun v => vesselInUse s v && (vesselRow s.tables v).points.contains row)
      || (castOpen s && (lineRow s.tables).points.contains row)
  | 1 => (vesselOf row).any (vesselInUse s)
  | 2 => (holders s).any fun b => b.recipe == row
  | 3 => (holders s).any fun b => vessels.any fun v => (stepRows s.tables b.recipe v).contains row
  | 4 => (holders s).any fun b => (additionRows s.tables b.recipe).contains row
  | 5 | 6 => castOpen s
  | 7 => (holders s).any fun b => b.strain == row + 1
  | _ => false

/-! ### Rows that become valid or invalid -/

/-- The VALID cell of a row of a table 0 to 7 is replaced. -/
def putValid (table row : Nat) (c : Cell) (s : State) : State :=
  { s with tables := s.tables.write table row (validField table) c }

/-- A valid Vessel Table row that names a point row loses its VALID (R61). -/
def dropVesselRow (point : Nat) (s : State) (v : Vessel) : State :=
  if vesselValid s.tables v && (vesselRow s.tables v).points.contains point then
    putValid 1 (vesselNumber v) 0 s
  else s

/-- What a point row's loss of VALID does: its entry is emptied (R29), and the Vessel and Line rows that name it
lose their VALID (R61, R109). -/
def pointLost (row : Nat) (s : State) : State :=
  let s := withEntry row (fun _ => .empty) s
  let s := vessels.foldl (dropVesselRow row) s
  if lineValid s.tables && (lineRow s.tables).points.contains row then putValid 5 0 0 s else s

/-- A valid recipe whose lists include a row that became invalid loses its VALID (R72). -/
def dropRecipe (uses : Nat → Bool) (s : State) (recipe : Nat) : State :=
  if recipeValid s.tables recipe && uses recipe then putValid 2 recipe 0 s else s

/-- A row becomes invalid, with the effects on other rows that its table states. -/
def invalidate (table row : Nat) (s : State) : State :=
  if cellAt (s.tables.get table) row (validField table) = 1 then
    let t := putValid table row 0 s
    match table with
    | 0 => pointLost row t
    | 3 => (List.range 16).foldl (dropRecipe fun r => vessels.any fun v => (stepRows s.tables r v).contains row) t
    | 4 => (List.range 16).foldl (dropRecipe fun r => (additionRows s.tables r).contains row) t
    | _ => t
  else s

/-- A row is validated: it becomes valid, a point row with an empty entry (R29), or it is invalid (log 18). The
answer says whether it is valid. -/
def validate (table row : Nat) (s : State) : Bool × State :=
  if rowChecks s table row then
    let fresh := table == 0 && !pointValid s.tables row
    let t := putValid table row 1 s
    (true, if fresh then withEntry row (fun _ => .empty) t else t)
  else (false, invalidate table row s)

/-! ### The pending bank (R146, R147) -/

/-- The pending bank's one VALID, in the header row. -/
def putBankValid (c : Cell) (s : State) : State :=
  { s with tables := { s.tables with tariff := setCell s.tables.tariff 0 4 c } }

/-- A cell of the pending bank has been written (R149, R154). -/
def touchBank (s : State) : State := withDuty (fun d => { d with bankTouched := true }) s

/-! ### TABLE_WRITE (R175) -/

/-- Why a cell is not written, in the order of R175. -/
inductive CellReason where
  | readOnly | inUse | range | invalid
deriving DecidableEq, Repr

def cellReasonCode : CellReason → Nat
  | .readOnly => 0
  | .inUse => 1
  | .range => 2
  | .invalid => 3

/-- A cell of the pending bank in range is written (R146). -/
def writeBankCell (row field : Nat) (c : Cell) (s : State) : Option CellReason × State :=
  if field = 4 then
    if c = 1 then
      if bankChecks s.tables then (none, touchBank (putBankValid 1 s)) else (some .invalid, putBankValid 0 s)
    else (none, touchBank (putBankValid 0 s))
  else
    (none, touchBank (putBankValid 0 { s with tables := s.tables.write 8 row field c }))

/-- A cell is written, by the first case of R175 that applies. -/
def writeCell (table row field : Nat) (c : Cell) (s : State) : Option CellReason × State :=
  if table = 9 then (some .readOnly, s)
  else if rowInUse s table row then (some .inUse, s)
  else if !inRange table row field c then (some .range, s)
  else if table = 8 then writeBankCell row field c s
  else if field = validField table then
    if c = 1 then
      let (ok, t) := validate table row s
      (if ok then none else some .invalid, t)
    else (none, invalidate table row s)
  else
    let t := invalidate table row s
    (none, { t with tables := t.tables.write table row field c })

/-! ### The window (R174) -/

/-- Whether a TABLE_WINDOW names a block of cells of its table. -/
def Window.ok (w : Window) : Bool :=
  decide (w.table ≤ 9 ∧ w.firstRow ≤ w.lastRow ∧ w.lastRow < tableRows w.table
    ∧ w.firstField ≤ w.lastField ∧ w.lastField < tableFields w.table)

/-- The start of a window. -/
def Window.start (w : Window) : Pointer := ⟨w.firstRow, w.firstField⟩

/-- A pointer after the cell it has reached: by row or by field, from the last cell to the first. -/
def Window.next (w : Window) (p : Pointer) : Pointer :=
  if w.fieldMajor then
    if p.row < w.lastRow then ⟨p.row + 1, p.field⟩
    else if p.field < w.lastField then ⟨w.firstRow, p.field + 1⟩ else w.start
  else
    if p.field < w.lastField then ⟨p.row, p.field + 1⟩
    else if p.row < w.lastRow then ⟨p.row + 1, w.firstField⟩ else w.start

/-- The first cell not written: its place in the frame, its cell, its reason. -/
structure Rejection where
  place  : Nat
  at_    : Pointer
  reason : CellReason
deriving DecidableEq, Repr

/-- What a TABLE_WRITE has done so far: cells met, cells written, the first rejection. -/
structure WriteTally where
  met     : Nat
  written : Nat
  first   : Option Rejection
deriving DecidableEq, Repr

/-- One cell of a TABLE_WRITE at the write pointer, which advances whatever becomes of it (R175). -/
def writeAtPointer (w : Window) (a : WriteTally × State) (c : Cell) : WriteTally × State :=
  let p := a.2.agent.writePtr
  let (why, t) := writeCell w.table p.row p.field c a.2
  let t := withAgent (fun g => { g with writePtr := w.next p }) t
  match why with
  | none => ({ a.1 with met := a.1.met + 1, written := a.1.written + 1 }, t)
  | some r =>
    ({ a.1 with
       met := a.1.met + 1
       first := some (a.1.first.getD { place := a.1.met + 1, at_ := p, reason := r }) },
     latch .tableReject t)

/-- One cell of a TABLE_WRITE, after which the conditions follow their causes: a bank that becomes invalid and valid
again within one request ends TARIFF_PENDING and begins it again (R175, R177, log 8). -/
def takeCell (w : Window) (a : WriteTally × State) (c : Cell) : WriteTally × State :=
  let b := writeAtPointer w a c
  (b.1, syncConditions b.2)

/-- The cells of a TABLE_WRITE, in order; the sequencers then meet the rows as they stand (R76). -/
def writeCells (w : Window) (cells : List Cell) (s : State) : WriteTally × State :=
  let (tally, t) := cells.foldl (takeCell w) ({ met := 0, written := 0, first := none }, s)
  (tally, syncAllCauses t)

/-- Reads `n` cells from the read pointer, which advances after each (R176). -/
def readCells (w : Window) : Nat → State → List Cell × State
  | 0, s => ([], s)
  | n + 1, s =>
    let p := s.agent.readPtr
    let c := readCell s w.table p.row p.field
    let (cs, t) := readCells w n (withAgent (fun g => { g with readPtr := w.next p }) s)
    (c :: cs, t)

/-- The data of a TABLE_WRITE reply: the count written, and the first cell not written or none. -/
def writeReply (t : WriteTally) : List Byte :=
  num 1 t.written
    ++ optional (fun r : Rejection =>
        num 1 r.place ++ num 1 r.at_.row ++ num 1 r.at_.field ++ num 1 (cellReasonCode r.reason)) t.first

/-- The data of a TABLE_READ reply: the cells in order, with the row and field of the first (log 15). -/
def readReply (first : Pointer) (cells : List Cell) : List Byte :=
  listField (fun c : Cell => num 4 c.toNat) cells ++ num 1 first.row ++ num 1 first.field

end Sys2Proof.Machine
end

