-- ==== Sys2Proof/Machine/Completion.lean ====
section
/-! DEFINITION. What the completion of a journal record does to the block that offered it, and the read-back that
completes it (R115, R126, R149, R151, R154, R156, R160, R161, R165). -/

namespace Sys2Proof.Machine

/-! ### A cast closes (R126, R69) -/

/-- Occupancy and the brew at the close of its cast (R69): a CASTING brew becomes CAST and the whirlpool EMPTY and
IDLE; an ABANDONED one keeps the whirlpool. -/
def closeOccupancy (number : Nat) (s : State) : State :=
  if (brew? s number).any fun b => b.state == .casting then
    changeBrewState number .cast (.vessel .whirlpool)
      (withBrew number (fun b => { b with occupied := [] }) (becomeIdle .whirlpool (emptyVessel .whirlpool s)))
  else s

/-- The argument of CAST_CLOSED: the end cause (R126). -/
def closedArg (c : Cast) : EventArg :=
  match c.endCause with
  | some e => .num (endCauseCode e)
  | none => .absent

/-- The CAST_CLOSE write completes (R126), its events in the order of the rule. -/
def castClosed (s : State) : State :=
  match s.castMeter.record with
  | none => s
  | some c =>
    let s := withCast (fun c => { c with state := .closed }) s
    let s := if currentKind s .whirlpool = some .cast then finishStep .whirlpool s else s
    let s := closeOccupancy c.brew s
    takeCharge c.brew (raiseCast .castClosed (closedArg c) s)

/-! ### The other records -/

/-- The PERIOD_CLOSE record of the account as it stands (R153). -/
def closeFigures (s : State) (yearEnd : Bool) : CloseBody :=
  let a := s.duty.account
  { period := a.period, casts := a.casts, dl := a.dl, cdl := a.cdl, duty := a.duty, ytd := a.ytd
    yearEnd := yearEnd, castCount := s.journal.castCount }

/-- The data of a PERIOD_CLOSE reply (R154). -/
def periodReply (b : CloseBody) (tariff : Option Seq) : List Byte :=
  num 2 b.period ++ num 4 b.casts ++ num 8 b.dl ++ num 8 b.cdl ++ num 8 b.duty ++ num 8 b.ytd
    ++ num 1 b.yearEnd.toNat ++ optional (fun q : Seq => num 4 q.toNat) tariff

/-- The deferred reply of a period close is sent (R154). -/
def endClosing (tariff : Option Seq) (s : State) : State :=
  match s.duty.closing with
  | some c => sendDeferred 25 .ok (periodReply c.figures tariff) (withDuty (fun u => { u with closing := none }) s)
  | none => s

/-- A TARIFF record completes (R149, R154). -/
def tariffComplete (image : TariffImage) (seq : Seq) (s : State) : State :=
  endClosing (some seq) (activateTariff image seq s)

/-- A PERIOD_CLOSE record completes (R154). -/
def periodComplete (b : CloseBody) (seq : Seq) (s : State) : State :=
  let s := withDuty (fun u => { u with account := u.account.closePeriod b.yearEnd }) s
  let s := withJournal (fun j =>
    { j with lastClose := some { seq := seq, period := b.period, ytd := b.ytd, yearEnd := b.yearEnd } }) s
  let s := raise .periodClosed .none none (.num b.period) s
  if s.duty.closing.any Closing.withTariff then s else endClosing none s

/-- The data of a CAST_SETTLE reply (R156). -/
def settleReply (b : SettledBody) (seq : Seq) : List Byte :=
  num 4 b.cast ++ num 4 seq.toNat ++ num 8 b.duty.dl ++ num 8 b.duty.cdl ++ num 8 b.duty.d

/-- A CAST_SETTLED record completes (R156). -/
def settledComplete (b : SettledBody) (brew : Nat) (seq : Seq) (s : State) : State :=
  let s := withJournal (fun j => { j with orphans := j.orphans.filter fun o => o.cast != b.cast }) s
  sendDeferred 24 .ok (settleReply b seq) (takeCharge brew s)

/-- A RELEASE record completes (R165). -/
def releaseComplete (b : ReleaseBody) (seq : Seq) (s : State) : State :=
  let s := withJournal (fun j => { j with tail := b.releasedTo }) s
  sendDeferred 28 .ok (num 4 b.releasedTo.toNat ++ num 4 seq.toNat) s

/-- The completion of a record is reported to the block that offered it (R160). -/
def recordComplete (d : Draft) (seq : Seq) (s : State) : State :=
  match d.body with
  | .tariff image => tariffComplete image seq s
  | .castOpen _ => castOpened s
  | .castClose _ => castClosed s
  | .castSettled b => settledComplete b d.brew seq s
  | .periodClose b => periodComplete b seq s
  | .release b => releaseComplete b seq s

/-- The read-back completes (R161): all 512 bytes as written complete the record, and the store falls free; any
other makes the position bad. -/
def readbackDone (answer : StoreAnswer) (s : State) : State :=
  match s.journal.op, s.journal.queue with
  | .verifying, d :: _ =>
    let q := writePosition s.journal
    let (bytes, store) := readBlock (blockOf q) answer s.store
    let s := { s with store := store }
    if bytes = blockBytes q d then startRead (recordComplete d q (popRecord s)) else badPosition s
  | _, _ => s

end Sys2Proof.Machine
end

