-- ==== Sys2Proof/Machine/Mount.lean ====
section
/-! DEFINITION. The mount: the reading of every block, the positions it fixes, and the state it rebuilds (R150, R167,
R168). -/

namespace Sys2Proof.Machine

/-! ### Records -/

/-- The latest of some records, by the order of R158. -/
def latestRecord : List Record → Option Record
  | [] => none
  | r :: rest =>
    match latestRecord rest with
    | some q => if laterSeq r.seq q.seq then some r else some q
    | none => some r

def Record.release? (r : Record) : Option ReleaseBody :=
  match r.body with
  | .release b => some b
  | .tariff _ | .castOpen _ | .castClose _ | .castSettled _ | .periodClose _ => none

def Record.periodClose? (r : Record) : Option CloseBody :=
  match r.body with
  | .periodClose b => some b
  | .tariff _ | .castOpen _ | .castClose _ | .castSettled _ | .release _ => none

def Record.tariff? (r : Record) : Option TariffImage :=
  match r.body with
  | .tariff i => some i
  | .castOpen _ | .castClose _ | .castSettled _ | .periodClose _ | .release _ => none

/-- The cast number a record carries, in the kinds of step 5 of R167. -/
def Record.castNumber (r : Record) : Nat :=
  match r.body with
  | .castOpen b => b.cast
  | .castClose c => c.number
  | .castSettled b => b.cast
  | .periodClose b => b.castCount
  | .tariff _ | .release _ => 0

/-- The figures of the charge a CAST_CLOSE or CAST_SETTLED record holds. -/
def Record.charge? (r : Record) : Option DutyPart :=
  match r.body with
  | .castClose c => c.duty
  | .castSettled b => some b.duty
  | .tariff _ | .castOpen _ | .periodClose _ | .release _ => none

/-- Whether a record closes or settles a cast. -/
def Record.ends (r : Record) (cast : Nat) : Bool :=
  match r.body with
  | .castClose c => c.number == cast
  | .castSettled b => b.cast == cast
  | .tariff _ | .castOpen _ | .periodClose _ | .release _ => false

/-- The orphan a CAST_OPEN record would make. -/
def Record.orphan? (r : Record) : Option Orphan :=
  match r.body with
  | .castOpen b => some { cast := b.cast, brew := r.brew, fermenter := b.fermenter, tariffSeq := b.tariffSeq }
  | .tariff _ | .castClose _ | .castSettled _ | .periodClose _ | .release _ => none

/-! ### The positions (R167) -/

/-- A record's place counted from the tail. -/
def placeOf (tail : Seq) (r : Record) : Nat := (r.seq - tail).toNat

/-- Records inserted in sequence order from the tail. -/
def insertRecord (tail : Seq) (r : Record) : List Record → List Record
  | [] => [r]
  | q :: rest => if placeOf tail r < placeOf tail q then r :: q :: rest else q :: insertRecord tail r rest

/-- Records in sequence order from the tail. -/
def sortRecords (tail : Seq) : List Record → List Record
  | [] => []
  | r :: rest => insertRecord tail r (sortRecords tail rest)

/-- What the mount fixes (R167): head, tail, the latest RELEASE body with its sequence, and the good records at
unreleased positions in sequence order. -/
structure Mounted where
  head    : Seq
  tail    : Seq
  release : Option (Seq × ReleaseBody)
  records : List Record
deriving DecidableEq, Repr

/-- Steps 1 to 3 of R167. -/
def mountPositions (good : List Record) : Mounted :=
  let head := match latestRecord good with
    | some r => r.seq + 1
    | none => 0
  let release := (latestRecord (good.filter fun r => r.release?.isSome)).bind fun r =>
    r.release?.map fun b => (r.seq, b)
  let tail := match release with
    | some (_, b) => b.releasedTo
    | none => 0
  { head := head, tail := tail, release := release
    records := sortRecords tail (good.filter fun r => decide (placeOf tail r < (head - tail).toNat)) }

/-- The latest PERIOD_CLOSE among the records read. -/
def Mounted.lastPeriod (m : Mounted) : Option LastClose :=
  (m.records.filterMap fun r => r.periodClose?.map fun b =>
    { seq := r.seq, period := b.period, ytd := b.ytd, yearEnd := b.yearEnd : LastClose }).getLast?

/-- Step 4 of R167: the latest PERIOD_CLOSE read, or what the latest RELEASE carries. -/
def Mounted.lastClose (m : Mounted) : Option LastClose :=
  match m.lastPeriod with
  | some c => some c
  | none => m.release.map fun r => r.2.close

/-- Step 5 of R167: the greatest cast number. -/
def Mounted.castCount (m : Mounted) : Nat :=
  (m.records.map Record.castNumber).foldl max (match m.release with
    | some r => r.2.castCount
    | none => 0)

/-- Whether a bad block is damage (step 6 of R167): it lies at an unreleased position, and no good record after it
has a skip count that reaches back to it. -/
def Mounted.damaged (m : Mounted) (block : Nat) : Bool :=
  let p := m.tail + BitVec.ofNat 32 ((block + 4096 - blockOf m.tail) % 4096)
  decide ((p - m.tail).toNat < (m.head - m.tail).toNat)
    && match m.records.find? fun r => decide ((p - m.tail).toNat < placeOf m.tail r) with
      | some r => decide (r.skip < (r.seq - p).toNat)
      | none => true

/-! ### The rebuilt state (R168) -/

/-- Step 1 of R168: the tariff with its sequence. -/
def Mounted.tariff (m : Mounted) : Option (TariffImage × Seq) :=
  match (m.records.filterMap fun r => r.tariff?.map fun i => (i, r.seq)).getLast? with
  | some t => some t
  | none => m.release.bind fun r => r.2.tariffSeq.map fun q => (r.2.tariff, q)

/-- The base of the account (step 2 of R168): the figures of the latest RELEASE when it is later than every
PERIOD_CLOSE read, else the latest PERIOD_CLOSE. -/
def Mounted.base (m : Mounted) : Option LastClose :=
  match m.release, m.lastPeriod with
  | some r, some c => if laterSeq r.1 c.seq then some r.2.close else some c
  | some r, none => some r.2.close
  | none, c => c

/-- The charges later than the base, in sequence order (step 2 of R168). -/
def Mounted.charges (m : Mounted) : List DutyPart :=
  (m.records.filter fun r => m.base.all fun c => laterSeq r.seq c.seq).filterMap Record.charge?

/-- The account before its charges (R150). -/
def accountFrom (base : Option LastClose) : Account :=
  { period := match base with
      | some c => nextPeriod c.period
      | none => 1
    casts := 0, dl := 0, cdl := 0, duty := 0
    ytd := match base with
      | some c => if c.yearEnd then 0 else c.ytd
      | none => 0 }

/-- The rebuilt account (R150, R168). -/
def Mounted.account (m : Mounted) : Account :=
  m.charges.foldl (fun a d => a.take d.dl d.cdl d.d) (accountFrom m.base)

/-- One orphan for each cast number, the first kept. -/
def firstOfCast : List Orphan → List Orphan
  | [] => []
  | o :: rest => o :: (firstOfCast rest).filter fun p => p.cast != o.cast

/-- The orphans in the order of their CAST_OPEN records (step 3 of R168). -/
def Mounted.orphans (m : Mounted) : List Orphan :=
  firstOfCast ((m.records.filterMap Record.orphan?).filter fun o => !m.records.any fun r => r.ends o.cast)

/-- The mount completes (R167, R168). -/
def mountComplete (s : State) : State :=
  let m := mountPositions s.journal.mountGood
  let orphans := m.orphans
  let damaged := s.journal.mountBad.any m.damaged
  let s := withJournal (fun j =>
    { j with
      mount := .ready, head := m.head, tail := m.tail, reservations := 0, queue := [], consecutive := 0
      failed := false, castCount := m.castCount, lastClose := m.lastClose, orphans := orphans.take 4
      unlisted := min 65535 (orphans.length - 4), mountBlock := 0, mountGood := [], mountBad := [] }) s
  let s := withDuty (fun u => { u with account := m.account }) s
  let s := match m.tariff with
    | some (image, seq) => withDuty (fun u => { u with tariff := .active, active := image, activeSeq := seq }) s
    | none => s
  let s := if damaged then latch .journalDamaged s else s
  if 4 < orphans.length then latch .orphanOverflow s else s

/-- A block of the mount is classified (R157, R167). -/
def mountClassify (bytes : List Byte) (j : Journal) : Journal :=
  match classifyBlock j.mountBlock bytes with
  | .erased => { j with mountBlock := j.mountBlock + 1 }
  | .good r => { j with mountBlock := j.mountBlock + 1, mountGood := j.mountGood ++ [r] }
  | .bad => { j with mountBlock := j.mountBlock + 1, mountBad := j.mountBad ++ [j.mountBlock] }

/-- A block read of the mount completes; after block 4,095 the mount does (R167). -/
def mountBlockDone (answer : StoreAnswer) (s : State) : State :=
  if s.journal.mount = .mounting then
    let (bytes, store) := readBlock s.journal.mountBlock answer s.store
    let s := withJournal (mountClassify bytes) { s with store := store }
    if 4096 ≤ s.journal.mountBlock then mountComplete s else s
  else s

end Sys2Proof.Machine
end

