-- ==== Sys2Proof/Machine/Status.lean ====
section
/-! DEFINITION. The data of the replies that read the part: STATUS_READ, BREW_READ, CAST_READ, DUTY_READ and the
authority records (R34, R51, R52, R59, R62, R75, R97, R111, R129, R152, R169, R179), coded as R172 (log 15). -/

namespace Sys2Proof.Machine

/-- A loop time or a sequence number (R172). -/
def word (w : BitVec 32) : List Byte := num 4 w.toNat

/-- A vessel's authority record: authority, supervisor lock, step lock (3.1, R34). -/
def authorityBytes (r : VesselRec) : List Byte :=
  num 1 (authorityCode r.authority) ++ num 1 (firstIfSet r.supervisorLock) ++ num 1 (firstIfSet r.stepLock)

/-- The authority records of the four vessels in vessel order. -/
def allAuthorityBytes (s : State) : List Byte := vessels.flatMap fun v => authorityBytes (s.vessels.get v)

/-- A holding slot: point, vessel, step, hold time, and the frame's origin, source and demand (R51). -/
def holdBytes (h : Hold) : List Byte :=
  num 1 h.point ++ num 1 (vesselNumber h.vessel) ++ optional (num 1) h.step ++ word h.time
    ++ num 1 (driveOrigin h.frame) ++ [h.frame.source] ++ num 2 (driveDemand h.frame)

/-- The four hold slots, each free or holding (R51). -/
def slotsBytes (s : State) : List Byte := [0, 1, 2, 3].flatMap fun i => optional holdBytes (slotHold s i)

/-- The Brew Table rows in use: row, brew number, state (R52). -/
def brewRowsBytes (s : State) : List Byte :=
  listField (fun p : Nat × Brew => num 1 p.1 ++ num 2 p.2.number ++ num 1 (brewStateCode p.2.state))
    (s.brews.zipIdx.filterMap fun p => p.1.map fun b => (p.2, b))

/-- A vessel's record: occupant, occupancy, sequencer state, authority record (R62). -/
def vesselBytes (s : State) (v : Vessel) : List Byte :=
  let r := s.vessels.get v
  optional (num 2) r.occupant ++ num 1 (occupancyCode r.occupancy) ++ num 1 (seqStateCode (s.seqs.get v).state)
    ++ authorityBytes r

/-- A blocked reason: none, DESTINATION_BUSY, or CAST_REFUSED with its reason (5.3). -/
def blockedBytes : Option BlockReason → List Byte
  | none => num 1 0
  | some .destinationBusy => num 1 1
  | some (.castRefused r) => num 1 2 ++ num 1 (openRefusalCode r)

/-- A sequencer: state, position, phase, causes, blocked reason, and where the vessel is heated its setpoint and
last demand (R75). -/
def seqBytes (s : State) (v : Vessel) : List Byte :=
  let q := s.seqs.get v
  let c := q.causes
  num 1 (seqStateCode q.state) ++ optional (num 1) q.position ++ num 1 (phaseCode q.phase)
    ++ num 1 (maskOf [c.hand, c.stale, c.link, c.power]) ++ blockedBytes q.blocked
    ++ (if heated v then optional (sint 8) q.setpoint ++ num 2 q.lastDemand else [])

/-- The boil: begun, clock, cursor, pending index, entries of the send queue (R97). -/
def boilBytes (u : BoilUnit) : List Byte :=
  num 1 (firstIfSet u.begun) ++ num 3 u.clock ++ num 1 u.cursor ++ optional (num 1) u.pending
    ++ num 1 u.sendQueue.length

/-- The pause causes as a mask (7.3). -/
def pauseMask (l : List PauseCause) : Nat := maskOf (pauseCauses.map l.contains)

/-- The pitch part in STATUS_READ (R129). -/
def pitchStatus (p : PitchPart) : List Byte :=
  num 8 p.target ++ num 8 p.issued ++ num 8 p.confirmed ++ num 8 p.unconfirmed ++ num 1 p.outstanding.toNat
    ++ num 8 p.lag ++ num 1 (maskOf [p.pitchLag, p.lagged, p.dosingFailed])

/-- The cast in STATUS_READ: number, state and pause causes, or none (R111). -/
def castStatus (c : Cast) : List Byte :=
  num 4 c.number ++ num 1 (castStateCode c.state) ++ num 1 (pauseMask c.pauses)

/-- An entry of the orphan list (R168). -/
def orphanBytes (o : Orphan) : List Byte := num 4 o.cast ++ num 2 o.brew ++ num 1 o.fermenter ++ word o.tariffSeq

/-- The journal in STATUS_READ (R169). -/
def journalBytes (j : Journal) : List Byte :=
  num 1 (mountStateCode j.mount) ++ word j.head ++ word j.tail ++ num 2 j.reservations ++ num 2 (freeRoom j)
    ++ num 1 j.queue.length ++ num 1 (firstIfSet j.failed) ++ listField orphanBytes j.orphans
    ++ num 2 j.unlisted

/-- The configuration (R183). -/
def configBytes (c : PartConfig) : List Byte := num 1 c.supervisor ++ num 1 c.fairness ++ num 2 c.interval

/-- The data of STATUS_READ (R179), the loop time among them (DESIGN CHOICE against R21, log 40). -/
def statusData (s : State) : List Byte :=
  [s.stationAddress] ++ word s.loopTime ++ configBytes s.agent.config ++ num 1 s.loop.frameErrors
    ++ condMask s.agent.conditions ++ num 1 s.agent.events.length ++ num 1 (firstIfSet s.agent.shedding)
    ++ allAuthorityBytes s ++ slotsBytes s ++ brewRowsBytes s ++ vessels.flatMap (vesselBytes s)
    ++ vessels.flatMap (seqBytes s) ++ boilBytes s.boil ++ optional castStatus s.castMeter.record
    ++ optional pitchStatus (pitch? s) ++ journalBytes s.journal

/-- The boil record (6.2). -/
def boilRecordBytes (r : BoilRecord) : List Byte :=
  word r.start ++ num 3 r.clock ++ optional (num 8) r.startLevel ++ optional (num 8) r.endLevel
    ++ optional (fun e : Nat × Nat => num 8 e.1 ++ num 8 e.2) r.evaporation
    ++ num 1 (maskOf [r.levelMissing, r.lowEvaporation, r.halted])
    ++ listField (fun p : Nat × Nat => num 1 p.1 ++ num 3 p.2) r.fired
    ++ listField (fun p : Nat × MissCause => num 1 p.1 ++ num 1 (missCauseCode p.2)) r.missed

/-- The whole brew record (4.1, R59). -/
def brewData (b : Brew) : List Byte :=
  num 2 b.number ++ num 1 b.recipe ++ num 1 b.fermenter ++ num 1 b.strain ++ num 2 b.override
    ++ num 1 (gravityPolicyCode b.gravity) ++ num 1 (lagPolicyCode b.lag) ++ num 1 (brewStateCode b.state)
    ++ listField (fun v => num 1 (vesselNumber v)) b.occupied
    ++ optional (fun m : MashRecord => num 8 m.steps ++ num 8 m.rest ++ num 8 m.deviation) b.mash
    ++ optional boilRecordBytes b.boil ++ optional (num 4) b.castNo

/-- The whole cast record (7.3, R111). -/
def castData (c : Cast) : List Byte :=
  num 4 c.number ++ num 2 c.brew ++ num 1 c.fermenter ++ word c.tariffSeq ++ word c.opened
    ++ optional word c.closed ++ num 1 (castStateCode c.state)
    ++ optional (fun e => num 1 (endCauseCode e)) c.endCause ++ num 1 (pauseMask c.pauses) ++ num 8 c.lineVolume
    ++ num 8 c.v20 ++ num 3 c.r ++ num 8 c.gv ++ optional word c.lastCount ++ num 2 c.rebases
    ++ num 2 c.pauseCount ++ num 1 (castFlagMask c.flags) ++ optional pitchBytes c.pitch
    ++ optional dutyBytes c.duty

/-- The active tariff sequence, or none (9.5). -/
def activeSequence (d : Duty) : Option Seq := if d.inForce then some d.activeSeq else none

/-- The data of DUTY_READ: the account, the tariff state, whether the bank is valid, the number of pending charges
and the sum of their CDL (R152). -/
def dutyData (s : State) : List Byte :=
  let d := s.duty
  let a := d.account
  num 2 a.period ++ num 4 a.casts ++ num 8 a.dl ++ num 8 a.cdl ++ num 8 a.duty ++ num 8 a.ytd
    ++ optional word (activeSequence d) ++ num 1 (tariffStateCode d.tariff)
    ++ num 1 (bankValid s.tables).toNat ++ num 8 d.charges.length ++ num 8 ((d.charges.map Charge.cdl).sum)

end Sys2Proof.Machine
end

