-- ==== Sys2Proof/Machine/Requests.lean ====
section
/-! DEFINITION. The 29 requests as typed parameters, their parameter bytes, and the reading of the bytes, which fails
where R171 answers BAD_REQUEST (R171, R172). -/

namespace Sys2Proof.Machine

/-- A request with its parameters, in the order of the codes of R172. -/
inductive Req where
  | statusRead (page : Nat)
  | clearConditions (set : List Cond)
  | tableWindow (window : Window)
  | tableWrite (cells : List Cell)
  | tableRead (count : Nat)
  | partConfig (config : PartConfig)
  | reset (vesselsOnly : Bool)
  | brewOpen (fields : BrewFields)
  | brewAssign (brew : Nat)
  | brewAbandon (brew : Nat)
  | brewRelease (brew : Nat)
  | brewRead (brew page : Nat)
  | vesselClear (vessel : Vessel)
  | vesselStart (vessel : Vessel)
  | groupStart (group : Nat)
  | vesselHalt (vessel : Vessel)
  | continueStep (vessel : Vessel)
  | authority (vessel : Vessel) (asked : Authority)
  | lock (mask : List Vessel) (on : Bool)
  | release (slot : Nat)
  | discard (slot : Nat)
  | castEnd
  | castRead (page : Nat)
  | castSettle (cast v20mL gm : Nat)
  | periodClose (yearEnd : Bool)
  | dutyRead
  | journalRead (seq : Seq) (count page : Nat)
  | journalRelease (seq : Seq)
  | journalRetry
deriving DecidableEq, Repr

/-- The request codes of R172. -/
def Req.code : Req → Nat
  | .statusRead _ => 1
  | .clearConditions _ => 2
  | .tableWindow _ => 3
  | .tableWrite _ => 4
  | .tableRead _ => 5
  | .partConfig _ => 6
  | .reset _ => 7
  | .brewOpen _ => 8
  | .brewAssign _ => 9
  | .brewAbandon _ => 10
  | .brewRelease _ => 11
  | .brewRead _ _ => 12
  | .vesselClear _ => 13
  | .vesselStart _ => 14
  | .groupStart _ => 15
  | .vesselHalt _ => 16
  | .continueStep _ => 17
  | .authority _ _ => 18
  | .lock _ _ => 19
  | .release _ => 20
  | .discard _ => 21
  | .castEnd => 22
  | .castRead _ => 23
  | .castSettle _ _ _ => 24
  | .periodClose _ => 25
  | .dutyRead => 26
  | .journalRead _ _ _ => 27
  | .journalRelease _ => 28
  | .journalRetry => 29

/-! ### Writing the parameters -/

/-- A number in `w` bytes, most significant first (R172). -/
def put (w n : Nat) : List Byte := digits w n

def orderCode (fieldMajor : Bool) : Nat := fieldMajor.toNat

/-- The parameter bytes of a request, in the order of its row of R172. -/
def Req.params : Req → List Byte
  | .statusRead p => put 1 p
  | .clearConditions set => put 1 (maskOf (latchedConds.map set.contains))
  | .tableWindow w =>
    put 1 w.table ++ put 1 w.firstRow ++ put 1 w.lastRow ++ put 1 w.firstField ++ put 1 w.lastField
      ++ put 1 (orderCode w.fieldMajor)
  | .tableWrite cells => cells.flatMap fun c => put 4 c.toNat
  | .tableRead n => put 1 n
  | .partConfig c => put 1 c.supervisor ++ put 1 c.fairness ++ put 2 c.interval
  | .reset vesselsOnly => put 1 vesselsOnly.toNat
  | .brewOpen f =>
    put 2 f.number ++ put 1 f.recipe ++ put 1 f.fermenter ++ put 1 f.strain ++ put 2 f.override
      ++ put 1 (gravityPolicyCode f.gravity) ++ put 1 (lagPolicyCode f.lag)
  | .brewAssign n | .brewAbandon n | .brewRelease n => put 2 n
  | .brewRead n p => put 2 n ++ put 1 p
  | .vesselClear v | .vesselStart v | .vesselHalt v | .continueStep v => put 1 (vesselNumber v)
  | .groupStart g => put 1 g
  | .authority v a => put 1 (vesselNumber v) ++ put 1 (authorityCode a)
  | .lock mask on => put 1 (maskOf (vessels.map mask.contains)) ++ put 1 on.toNat
  | .release i | .discard i => put 1 i
  | .castEnd | .dutyRead | .journalRetry => []
  | .castRead p => put 1 p
  | .castSettle n v g => put 4 n ++ put 4 v ++ put 2 g
  | .periodClose y => put 1 y.toNat
  | .journalRead q n p => put 4 q.toNat ++ put 1 n ++ put 1 p
  | .journalRelease q => put 4 q.toNat

/-! ### Ranges -/

/-- Whether every parameter lies in its stated range (R171 and the rule of each request). -/
def Req.ok (own : Byte) : Req → Bool
  | .statusRead p | .castRead p => decide (p ≤ 255)
  | .clearConditions set => set == latchedConds.filter set.contains
  | .tableWindow w => w.ok
  | .tableWrite cells => decide (1 ≤ cells.length ∧ cells.length ≤ 24)
  | .tableRead n => decide (1 ≤ n ∧ n ≤ 24)
  | .partConfig c =>
    decide (c.supervisor ≤ 254 ∧ 1 ≤ c.fairness ∧ c.fairness ≤ 255 ∧ 10 ≤ c.interval ∧ c.interval ≤ 1000)
      && c.supervisor != own.toNat
  | .reset _ => true
  | .brewOpen f =>
    decide (1 ≤ f.number ∧ f.number ≤ 65535 ∧ f.recipe ≤ 15 ∧ 1 ≤ f.fermenter ∧ f.fermenter ≤ 48
      ∧ f.strain ≤ 12 ∧ (f.override = 0 ∨ (100 ≤ f.override ∧ f.override ≤ 4000 ∧ f.strain ≠ 0)))
  | .brewAssign n | .brewAbandon n | .brewRelease n => decide (1 ≤ n ∧ n ≤ 65535)
  | .brewRead n p => decide (1 ≤ n ∧ n ≤ 65535 ∧ p ≤ 255)
  | .vesselClear _ | .vesselStart _ | .vesselHalt _ | .continueStep _ | .authority _ _ => true
  | .groupStart g => decide (g ≤ 3)
  | .lock mask _ => mask == vessels.filter mask.contains
  | .release i | .discard i => decide (i ≤ 3)
  | .castEnd | .dutyRead | .journalRetry | .periodClose _ | .journalRelease _ => true
  | .castSettle n v g => decide (1 ≤ n ∧ n ≤ 4294967295 ∧ v ≤ 4294967295 ∧ g ≤ 40000)
  | .journalRead _ n p => decide (1 ≤ n ∧ n ≤ 4 ∧ p ≤ 255)

/-! ### Reading the parameters -/

/-- The number of byte `i`. -/
def byteAt (ps : List Byte) (i : Nat) : Nat := (ps.getD i 0).toNat

/-- The number of the `w` bytes at `i`. -/
def numAt (ps : List Byte) (i w : Nat) : Nat := natOf ((ps.drop i).take w)

/-- A two-valued field. -/
def boolOf : Nat → Option Bool
  | 0 => some false
  | 1 => some true
  | _ => none

/-- The members of a mask, the first listed being the least significant bit; no other bit may be set (R171,
R172). -/
def membersOf {α : Type} (l : List α) (mask : Nat) : Option (List α) :=
  if mask < 2 ^ l.length then some ((l.zipIdx.filter fun p => mask.testBit p.2).map Prod.fst) else none

def authorityOf : Nat → Option Authority
  | 0 => some .hand
  | 1 => some .auto
  | _ => none

def gravityPolicyOf : Nat → Option GravityPolicy
  | 0 => some .holdLast
  | 1 => some .pause
  | _ => none

def lagPolicyOf : Nat → Option LagPolicy
  | 0 => some .pause
  | 1 => some .continue_
  | _ => none

/-- Cells, four bytes each (R174). -/
def cellsOf : Nat → List Byte → List Cell
  | 0, _ => []
  | n + 1, ps => BitVec.ofNat 32 (natOf (ps.take 4)) :: cellsOf n (ps.drop 4)

/-- The length of a request's parameters where its code fixes it (R172). -/
def paramLength : Nat → Nat
  | 1 | 2 | 5 | 7 | 13 | 14 | 15 | 16 | 17 | 20 | 21 | 23 | 25 => 1
  | 3 => 6
  | 6 | 28 => 4
  | 8 => 9
  | 9 | 10 | 11 | 18 | 19 => 2
  | 12 => 3
  | 24 => 10
  | 27 => 6
  | _ => 0

/-- Whether the parameters have the length their code calls for (R171, R172). TABLE_WRITE carries its 1 to 24 cells
bare, with no byte for their number before them (DEDUCED, log 15). -/
def lengthOk (code : Nat) (ps : List Byte) : Bool :=
  if code = 4 then decide (ps.length % 4 = 0 ∧ 4 ≤ ps.length ∧ ps.length ≤ 96)
  else ps.length == paramLength code

/-- The parameters of a code, their ranges not yet tested. -/
def readParams (code : Nat) (ps : List Byte) : Option Req :=
  let b := byteAt ps
  let brew := numAt ps 0 2
  let vessel := vesselOf (b 0)
  match code with
  | 1 => some (.statusRead (b 0))
  | 2 => (membersOf latchedConds (b 0)).map .clearConditions
  | 3 => (boolOf (b 5)).map fun o => .tableWindow
      { table := b 0, firstRow := b 1, lastRow := b 2, firstField := b 3, lastField := b 4, fieldMajor := o }
  | 4 => some (.tableWrite (cellsOf (ps.length / 4) ps))
  | 5 => some (.tableRead (b 0))
  | 6 => some (.partConfig { supervisor := b 0, fairness := b 1, interval := numAt ps 2 2 })
  | 7 => (boolOf (b 0)).map .reset
  | 8 => (gravityPolicyOf (b 7)).bind fun g => (lagPolicyOf (b 8)).map fun l => .brewOpen
      { number := brew, recipe := b 2, fermenter := b 3, strain := b 4, override := numAt ps 5 2, gravity := g
        lag := l }
  | 9 => some (.brewAssign brew)
  | 10 => some (.brewAbandon brew)
  | 11 => some (.brewRelease brew)
  | 12 => some (.brewRead brew (b 2))
  | 13 => vessel.map .vesselClear
  | 14 => vessel.map .vesselStart
  | 15 => some (.groupStart (b 0))
  | 16 => vessel.map .vesselHalt
  | 17 => vessel.map .continueStep
  | 18 => vessel.bind fun v => (authorityOf (b 1)).map (.authority v)
  | 19 => (membersOf vessels (b 0)).bind fun m => (boolOf (b 1)).map (.lock m)
  | 20 => some (.release (b 0))
  | 21 => some (.discard (b 0))
  | 22 => some .castEnd
  | 23 => some (.castRead (b 0))
  | 24 => some (.castSettle (numAt ps 0 4) (numAt ps 4 4) (numAt ps 8 2))
  | 25 => (boolOf (b 0)).map .periodClose
  | 26 => some .dutyRead
  | 27 => some (.journalRead (BitVec.ofNat 32 (numAt ps 0 4)) (b 4) (b 5))
  | 28 => some (.journalRelease (BitVec.ofNat 32 (numAt ps 0 4)))
  | 29 => some .journalRetry
  | _ => none

/-- The request a code and its parameters stand for; none where R171 answers BAD_REQUEST. -/
def parseReq (own : Byte) (code : Nat) (ps : List Byte) : Option Req :=
  if lengthOk code ps then (readParams code ps).filter (Req.ok own) else none

end Sys2Proof.Machine
end

