-- ==== Sys2Proof/Machine/Reset.lean ====
section
/-! DEFINITION. The full reset and what follows it: the reading of the station address, the mode, the relay and the
start of the mount (R2 to R4, R21, R167, R184). -/

namespace Sys2Proof.Machine

/-- Whether an address puts the part in ACTIVE mode (R3). -/
def activeAddress (a : Byte) : Bool := decide (1 ≤ a.toNat ∧ a.toNat ≤ 254)

/-- The station address is read from the pins: the mode follows, the relay opens, and the link and report timers
start (R2, R3, R12, R181). -/
def addressRead (s : State) : State :=
  { s with
    stationAddress := s.pins.address
    mode := if activeAddress s.pins.address then .active else .bypass
    relayOpen := true
    loop := { s.loop with linkTimer := some s.loopTime }
    agent := { s.agent with reportTimer := some s.loopTime, reportLimit := s.agent.config.interval } }

/-- The part starts with its address read; in ACTIVE mode the mount begins (R167), and the conditions and causes that
hold join. -/
def startUp (s : State) : State :=
  if activeAddress s.pins.address then
    settle (syncAllCauses (withJournal (fun j => { j with mount := .mounting }) (addressRead s)))
  else addressRead s

/-- A full reset of any origin (R2, R3): every block at its full-reset values, with the store, but for a write cut
short (R163), and the levels of the other pins as they are. With the reset input asserted the part is held and its
address unread. -/
def fullReset (resetInput : Bool) (address : Byte) (s : State) : State :=
  let t := State.cleared { s.pins with address := address, reset := resetInput } (cutStore s) s.pending
  if resetInput then t else startUp t

/-- The reset input is released: a part held in reset reads its address (R2). -/
def releaseReset (address : Byte) (s : State) : State :=
  if s.mode = .inReset ∧ s.pins.reset = true then
    startUp { s with pins := { s.pins with address := address, reset := false } }
  else s

end Sys2Proof.Machine
end

