-- ==== Sys2Proof/Machine/Management.lean ====
section
/-! DEFINITION. The Management Agent's service of each request: the effect its rule states, and the REPLY or the
deferral that ends it (chapters 3 to 5, 7, 9 to 11). -/

namespace Sys2Proof.Machine

/-! ### Replies (R170, R171, R173) -/

/-- The REPLY that ends a request's service. -/
def answer (code : Nat) (rq : Request) (r : Result) (data : List Byte) (s : State) : State :=
  (reply rq.source rq.tag (BitVec.ofNat 8 code) r data s).2

/-- The paged REPLY of a page of some data (R173). -/
def answerPage (code : Nat) (rq : Request) (r : Result) (page : Nat) (data : List Byte) (s : State) : State :=
  answer code rq r (pageOf page data) s

/-! ### The Management Agent's own requests -/

/-- STATUS_READ (R179): the sets follow when the queue takes page 0. -/
def doStatusRead (page : Nat) (rq : Request) (s : State) : State :=
  let (r, t) := reply rq.source rq.tag 1 .ok (pageOf page (statusData s)) s
  if r.taken && page == 0 then
    withAgent (fun a => { a with acked := s.agent.conditions, reported := s.agent.conditions }) t
  else t

/-- CLEAR_CONDITIONS (R177). -/
def doClearConditions (set : List Cond) (rq : Request) (s : State) : State :=
  let s := withAgent (fun a => { a with latched := a.latched.filter fun c => !set.contains c }) s
  let s := if set.contains .frameErrors then withLoop (fun l => { l with frameErrors := 0 }) s else s
  let s := leaveConds s
  answer 2 rq .ok (condMask s.agent.conditions) s

/-- TABLE_WINDOW (R174). -/
def doTableWindow (w : Window) (rq : Request) (s : State) : State :=
  answer 3 rq .ok []
    (withAgent (fun a =>
      { a with window := some w, writePtr := w.start, readPtr := w.start, keptWrite := none, keptRead := none }) s)

/-- Whether a kept request is repeated (R176). -/
def repeats (kept : Option Kept) (rq : Request) : Option Kept := kept.filter fun k => k.request == rq

/-- TABLE_WRITE (R174 to R176). -/
def doTableWrite (cells : List Cell) (rq : Request) (s : State) : State :=
  match s.agent.window with
  | none => answer 4 rq .range [] s
  | some w =>
    match repeats s.agent.keptWrite rq with
    | some k => answer 4 rq k.result k.data s
    | none =>
      let (tally, t) := writeCells w cells s
      let data := writeReply tally
      answer 4 rq .ok data
        (withAgent (fun a => { a with keptWrite := some { request := rq, result := .ok, data := data } }) t)

/-- TABLE_READ (R174, R176). -/
def doTableRead (count : Nat) (rq : Request) (s : State) : State :=
  match s.agent.window with
  | none => answer 5 rq .range [] s
  | some w =>
    match repeats s.agent.keptRead rq with
    | some k => answer 5 rq k.result k.data s
    | none =>
      let (cells, t) := readCells w count s
      let data := readReply s.agent.readPtr cells
      answer 5 rq .ok data
        (withAgent (fun a => { a with keptRead := some { request := rq, result := .ok, data := data } }) t)

/-- PART_CONFIG (R183). -/
def doPartConfig (c : PartConfig) (rq : Request) (s : State) : State :=
  answer 6 rq .ok (configBytes c) (withAgent (fun a => { a with config := c }) s)

/-- RESET(FULL) (R184): BUSY while a cast is open or a write is in progress; else the full reset, with no reply. -/
def doResetFull (address : Byte) (rq : Request) (s : State) : State :=
  if castOpen s || writeInProgress s.journal then answer 7 rq .busy [] s else fullReset false address s

/-- RESET(VESSELS) (R184). -/
def doResetVessels (rq : Request) (s : State) : State := answer 7 rq .ok [] (resetVessels s)

/-! ### The Brew Manager's requests -/

/-- BREW_OPEN (R55). -/
def doBrewOpen (f : BrewFields) (rq : Request) (s : State) : State :=
  let (r, row, t) := openBrew f s
  answer 8 rq r ((row.map (num 1)).getD []) t

/-- BREW_ASSIGN (R57). -/
def doBrewAssign (n : Nat) (rq : Request) (s : State) : State :=
  let (r, t) := assignBrew n s
  answer 9 rq r [] t

/-- BREW_ABANDON (R58). -/
def doBrewAbandon (n : Nat) (rq : Request) (s : State) : State :=
  let (r, t) := abandonBrew n s
  answer 10 rq r [] t

/-- BREW_RELEASE (R59). -/
def doBrewRelease (n : Nat) (rq : Request) (s : State) : State :=
  let (r, t) := releaseBrew n s
  answer 11 rq r [] t

/-- BREW_READ (R59). -/
def doBrewRead (n page : Nat) (rq : Request) (s : State) : State :=
  match brew? s n with
  | some b => answerPage 12 rq .ok page (brewData b) s
  | none => answerPage 12 rq .notFound page [] s

/-- VESSEL_CLEAR (R68). -/
def doVesselClear (v : Vessel) (rq : Request) (s : State) : State :=
  let (r, t) := clearVessel v s
  answer 13 rq r [] t

/-! ### The sequencers' requests -/

/-- A refused start raises START_REFUSED with its result (R80). -/
def refuseStart (v : Vessel) (r : Result) (rq : Request) (s : State) : State :=
  answer 14 rq r [] (raiseVessel .startRefused v (.num (resultCode r)) s)

/-- Whether a HALTED sequencer can be re-run: a list loaded and an occupant not ABANDONED (R80). -/
def canRerun (s : State) (v : Vessel) : Bool :=
  (s.seqs.get v).list.isSome && !(occupantBrew? s v).any fun b => b.state == .abandoned

/-- VESSEL_START (R80). -/
def doVesselStart (v : Vessel) (rq : Request) (s : State) : State :=
  if v = .whirlpool ∧ castOpen s = true then refuseStart v .busy rq s
  else
    match (s.seqs.get v).state with
    | .armed => answer 14 rq .ok [] (startList v s)
    | .halted =>
      if canRerun s v then answer 14 rq .ok [] (startList v s) else refuseStart v .notArmed rq s
    | .idle | .running | .suspended | .blocked => refuseStart v .notArmed rq s

/-- Whether a vessel starts with a group: ARMED, its row naming the group (R81). -/
def inGroup (s : State) (group : Nat) (v : Vessel) : Bool :=
  (s.seqs.get v).state == .armed && (vesselRow s.tables v).group == group

/-- GROUP_START (R81): the vessels begin in vessel order (DESIGN CHOICE, log 48). -/
def doGroupStart (group : Nat) (rq : Request) (s : State) : State :=
  let started := vessels.filter (inGroup s group)
  answer 15 rq .ok (listField (fun v => num 1 (vesselNumber v)) started)
    (started.foldl (fun s v => startList v s) s)

/-- VESSEL_HALT (R84): the REPLY carries the sequencer's state. -/
def doVesselHalt (v : Vessel) (rq : Request) (s : State) : State :=
  if v = .whirlpool ∧ castOpen s = true then
    answer 16 rq .busy (num 1 (seqStateCode (s.seqs.get v).state)) s
  else
    let t := halt v false s
    answer 16 rq .ok (num 1 (seqStateCode (t.seqs.get v).state)) t

/-- The codes of the effects of CONTINUE (R83). -/
def continueEffectCode : ContinueEffect → Nat
  | .waitEnded => 0
  | .transferEnded => 1
  | .boil => 2
  | .none => 3

/-- CONTINUE (R83): the REPLY carries the effect. -/
def doContinue (v : Vessel) (rq : Request) (s : State) : State :=
  let (e, t) := continueSeq v s
  answer 17 rq .ok (num 1 (continueEffectCode e)) t

/-! ### The Authority and Guard Unit's requests -/

/-- AUTHORITY (R40): the REPLY carries the vessel's record. -/
def doAuthority (v : Vessel) (a : Authority) (rq : Request) (s : State) : State :=
  let r := s.vessels.get v
  if a = .hand ∧ r.authority = .auto ∧ r.locked = true then answer 18 rq .locked (authorityBytes r) s
  else
    let t := changeAuthority v a (if a = .hand then .supervisorHand else .supervisorAuto) s
    answer 18 rq .ok (authorityBytes (t.vessels.get v)) t

/-- LOCK (R41): the REPLY carries all four records. -/
def doLock (mask : List Vessel) (on : Bool) (rq : Request) (s : State) : State :=
  let t := setLocks mask on s
  answer 19 rq .ok (allAuthorityBytes t) t

/-- RELEASE (R46). -/
def doRelease (slot : Nat) (rq : Request) (s : State) : State :=
  match slotHold s slot with
  | none => answer 20 rq .notHeld [] s
  | some h =>
    let (r, t) := offer h.released .guardUnit s
    if r.taken then answer 20 rq .ok [] (freeSlot slot t) else answer 20 rq .busy [] t

/-- DISCARD (R47). -/
def doDiscard (slot : Nat) (rq : Request) (s : State) : State :=
  match slotHold s slot with
  | none => answer 21 rq .notHeld [] s
  | some _ => answer 21 rq .ok [] (freeSlot slot s)

/-! ### The Cast Meter's requests -/

/-- The cast's number and state (R122). -/
def castBrief (s : State) : List Byte :=
  match s.castMeter.record with
  | some c => num 4 c.number ++ num 1 (castStateCode c.state)
  | none => []

/-- CAST_END (R122). -/
def doCastEnd (rq : Request) (s : State) : State :=
  if castOpen s then
    let t := endTrigger .request s
    answer 22 rq .ok (castBrief t) t
  else answer 22 rq .notFound [] s

/-- CAST_READ (R111). -/
def doCastRead (page : Nat) (rq : Request) (s : State) : State :=
  match s.castMeter.record with
  | some c => answerPage 23 rq .ok page (castData c) s
  | none => answerPage 23 rq .notFound page [] s

/-! ### The Duty Accountant's requests -/

/-- The result of the checks of CAST_SETTLE, in order (R155). -/
def settleResult (cast : Nat) (s : State) : Result :=
  if s.journal.mount ≠ .ready then .notReady
  else if !s.journal.orphans.any (fun o => o.cast == cast) then .notFound
  else if s.duty.charges.any (fun c => c.cast == cast) then .busy
  else if s.duty.tariff ≠ .active then .notReady
  else if freeRoom s.journal < 1 then .journalFull
  else if !queueHasPlace s then .busy
  else .ok

/-- The settlement of an orphan: charge, record, pending charge, deferred reply (R155). -/
def settleOrphan (o : Orphan) (v20mL gm : Nat) (rq : Request) (s : State) : State :=
  let d := computeDuty s.duty.active s.duty.activeSeq .declared v20mL gm (baseY s.duty)
  let body : SettledBody := { cast := o.cast, fermenter := o.fermenter, openSeq := o.tariffSeq, duty := d }
  match offerRecord (newDraft (.castSettled body) o.brew s) s with
  | some t => deferReply rq 24 (addCharge o.cast d t)
  | none => answer 24 rq .busy [] s

/-- CAST_SETTLE (R155). -/
def doCastSettle (cast v20mL gm : Nat) (rq : Request) (s : State) : State :=
  match settleResult cast s with
  | .ok =>
    match s.journal.orphans.find? fun o => o.cast == cast with
    | some o => settleOrphan o v20mL gm rq s
    | none => answer 24 rq .notFound [] s
  | r => answer 24 rq r [] s

/-- The result of the checks of PERIOD_CLOSE, in order (R153). -/
def closeResult (s : State) : Result :=
  if s.journal.mount ≠ .ready then .notReady
  else if castOpen s then .busy
  else if !s.journal.queue.isEmpty || s.duty.tariff == .activating || s.duty.tariff == .changing
      || !s.duty.charges.isEmpty then .busy
  else if !s.journal.orphans.isEmpty then .orphans
  else if freeRoom s.journal < 2 then .journalFull
  else .ok

/-- The accepted close: the PERIOD_CLOSE record, and behind it the TARIFF record of a valid pending bank, the reply
deferred (R153). A bank valid with no tariff active waits for the first activation. -/
def acceptClose (yearEnd : Bool) (rq : Request) (s : State) : State :=
  let figures := closeFigures s yearEnd
  match offerRecord (newDraft (.periodClose figures) 0 s) s with
  | none => answer 25 rq .busy [] s
  | some s =>
    let change := bankValid s.tables && s.duty.tariff == .active
    let s := if change then
        match offerTariff s with
        | some t => withDuty (fun u => { u with tariff := .changing }) t
        | none => s
      else s
    deferReply rq 25
      (withDuty (fun u => { u with closing := some { figures := figures, withTariff := change } }) s)

/-- PERIOD_CLOSE (R153). -/
def doPeriodClose (yearEnd : Bool) (rq : Request) (s : State) : State :=
  match closeResult s with
  | .ok => acceptClose yearEnd rq s
  | r => answer 25 rq r [] s

/-- DUTY_READ (R152). -/
def doDutyRead (rq : Request) (s : State) : State :=
  if s.journal.mount = .ready then answer 26 rq .ok (dutyData s) s else answer 26 rq .notReady [] s

/-! ### The Journal Port's requests -/

/-- JOURNAL_READ (R166): accepted, its reply is deferred and the read waits for the store. -/
def doJournalRead (q : Seq) (count page : Nat) (rq : Request) (s : State) : State :=
  if s.journal.mount ≠ .ready then answerPage 27 rq .notReady page [] s
  else if !(isUnreleased s.journal q && isUnreleased s.journal (q + BitVec.ofNat 32 count - 1)) then
    answerPage 27 rq .range page [] s
  else
    let job : ReadJob := { seq := q, count := count, page := page, done := 0, entries := [] }
    startRead (withJournal (fun j => { j with reads := j.reads ++ [job] }) (deferReply rq 27 s))

/-- The result of the checks of JOURNAL_RELEASE, in order (R165). -/
def releaseResult (q : Seq) (s : State) : Result :=
  let j := s.journal
  if j.mount ≠ .ready then .notReady
  else if !(j.lastClose.any fun c => laterSeq q j.tail && !laterSeq q (c.seq + 1)) then .range
  else if !j.orphans.isEmpty || decide (0 < j.unlisted) then .orphans
  else if j.queue.any fun d => d.body.isRelease then .busy
  else if freeRoom j < 1 then .journalFull
  else if !queueHasPlace s then .busy
  else .ok

/-- The RELEASE record as it is offered; its carried state is taken when its write begins (R159, R165), its header's
period number at the offer (DESIGN CHOICE, log 51). -/
def releaseDraft (q : Seq) (s : State) : Draft :=
  let empty : LastClose := { seq := 0, period := 0, ytd := 0, yearEnd := false }
  let body := carriedBody s
    { releasedTo := q, close := empty, castCount := 0, tariffSeq := none, tariff := .zero }
  newDraft (.release body) 0 s

/-- JOURNAL_RELEASE (R165). -/
def doJournalRelease (q : Seq) (rq : Request) (s : State) : State :=
  match releaseResult q s with
  | .ok =>
    match offerRecord (releaseDraft q s) s with
    | some t => deferReply rq 28 t
    | none => answer 28 rq .busy [] s
  | r => answer 28 rq r [] s

/-- The write queue's failure is cleared, so that JOURNAL_FAILED leaves, and the write of its head begins again. A
write that finds no room fails at once, and JOURNAL_FAILED is set afresh (R162, R177). -/
def retryWrite (s : State) : State :=
  if s.journal.failed then
    writeIfPossible (leaveConds (withJournal (fun j => { j with failed := false, consecutive := 0 }) s))
  else s

/-- JOURNAL_RETRY (R162). -/
def doJournalRetry (rq : Request) (s : State) : State :=
  if s.journal.mount = .ready then answer 29 rq .ok [] (retryWrite s) else answer 29 rq .notReady [] s

/-! ### The request queue (R170, R171) -/

/-- A request as the request queue holds it. -/
def queuedOf (code : Nat) (rq : Request) : Queued :=
  { source := rq.source, tag := rq.tag, payload := BitVec.ofNat 8 code :: rq.params }

/-- A MANAGE frame joins the request queue, or is answered QUEUE_FULL at once (R170). A frame with no payload has no
code to echo (log 12), and no page is carried (log 15). -/
def queueRequest (r : Queued) (s : State) : State :=
  if s.agent.requests.length < 8 then withAgent (fun a => { a with requests := a.requests ++ [r] }) s
  else (reply r.source r.tag (r.payload.headD Config.missingCode) .queueFull [] s).2

/-- A request command (log 4): the request at the head of the queue is taken; with the queue empty it arrives and is
taken at once; otherwise it joins the tail. Nothing happens outside ACTIVE mode (R4). -/
def onRequest (r : Queued) (service : State → State) (s : State) : State :=
  if s.mode = .active then
    settle
      (match s.agent.requests with
      | [] => service s
      | q :: rest =>
        if q = r then service (withAgent (fun a => { a with requests := rest }) s) else queueRequest r s)
  else s

end Sys2Proof.Machine
end

