-- ==== Sys2Proof/Machine/Frames.lean ====
section
/-! DEFINITION. The Loop Port's reception: characters, frames, the checks of a frame, its disposition, and the Sample
Unit's handling of samples and notices (R1, R5 to R11, R22 to R33, R43 to R45). -/

namespace Sys2Proof.Machine

/-! ### Samples (R7, R22 to R30) -/

def formatOf : Nat → Option SampleFormat
  | 1 => some .short
  | 2 => some .long
  | 3 => some .count
  | _ => none

def qualityOf : Nat → Option Quality
  | 0 => some .good
  | 1 => some .uncertain
  | 2 => some .bad
  | _ => none

/-- The bytes of a raw value (1.3). -/
def rawBytes : SampleFormat → Nat
  | .short => 2
  | .long => 3
  | .count => 4

/-- A raw value: signed for SHORT and LONG, unsigned for COUNT (1.3). -/
def rawOf (f : SampleFormat) (bs : List Byte) : Int :=
  match f with
  | .short | .long => intOf bs
  | .count => (natOf bs : Int)

/-- The items of a SAMPLE, which must fill the payload exactly (R7). -/
def itemsOf : Nat → List Byte → Option (List SampleItem)
  | 0, bs => if bs.isEmpty then some [] else none
  | n + 1, bs =>
    match formatOf (byteAt bs 1), qualityOf (byteAt bs 2) with
    | some f, some q =>
      let w := rawBytes f
      if byteAt bs 0 ≤ 15 ∧ 3 + w ≤ bs.length then
        (itemsOf n (bs.drop (3 + w))).map fun rest =>
          { channel := byteAt bs 0, format := f, quality := q, raw := rawOf f ((bs.drop 3).take w) } :: rest
      else none
    | _, _ => none

/-- A SAMPLE payload's items, if it is well formed (R7). -/
def sampleItems (payload : List Byte) : Option (List SampleItem) :=
  let n := byteAt payload 0
  if 1 ≤ n ∧ n ≤ 8 then itemsOf n (payload.drop 1) else none

/-- A delivery to the sequencer of a vessel whose valid row names the point (R30). -/
def deliverVessel (row : Nat) (s : State) (v : Vessel) : State :=
  if vesselValid s.tables v then
    let r := vesselRow s.tables v
    let s := if r.pv = row then pvSample v row s else s
    if r.level = row then levelSample v row s else s
  else s

/-- An accepted sample is delivered (R30): to the sequencers in vessel order, then to the Cast Meter. -/
def deliverSample (row : Nat) (s : State) : State := castSample row (vessels.foldl (deliverVessel row) s)

/-- One item of a SAMPLE frame (R22, R26, R27, R30). -/
def takeItem (source : Byte) (s : State) (i : SampleItem) : State :=
  match findPoint s.tables source.toNat i.channel with
  | none => s
  | some row =>
    match itemValue (pointRow s.tables row) i with
    | none => s
    | some (value, clamped) =>
      match i.quality with
      | .bad | .stale => withEntry row PointEntry.acceptBad s
      | .good | .uncertain =>
        settle (deliverSample row (withEntry row (fun e => e.accept value clamped i.quality s.loopTime) s))

/-- A SAMPLE frame reaches the Sample Unit: its items in order (R23). -/
def takeSample (f : Frame) (s : State) : State :=
  ((sampleItems f.payload).getD []).foldl (takeItem f.source) s

/-- A stale expiry is delivered to the sequencer of a vessel whose valid row names the point (R30). -/
def expireVessel (row : Nat) (s : State) (v : Vessel) : State :=
  if vesselValid s.tables v && (vesselRow s.tables v).pv == row then pvExpiry v s else s

/-- A point's stale timer reaches its limit (R28). -/
def staleExpired (row : Nat) (s : State) : State :=
  castExpiry row (vessels.foldl (expireVessel row) (withEntry row PointEntry.expire s))

/-- Whether a point's stale timer has run out (R28). -/
def staleDue (s : State) (row : Nat) : Bool :=
  pointValid s.tables row && timerDue s.loopTime (entryOf s row).staleTimer (pointRow s.tables row).staleLimit

/-! ### Notices (R32, R33) -/

/-- The codes of a NOTICE (1.3). -/
inductive NoticeCode where
  | handRequest | autoRequest | estop | continue_ | strokeDone
deriving DecidableEq, Repr

def noticeCodeOf : Nat → Option NoticeCode
  | 1 => some .handRequest
  | 2 => some .autoRequest
  | 3 => some .estop
  | 4 => some .continue_
  | 5 => some .strokeDone
  | _ => none

/-- A notice from a PANEL row goes to its vessel (R32). -/
def panelNotice (v : Vessel) (row : Nat) (code : NoticeCode) (s : State) : State :=
  match code with
  | .handRequest => handRequest v row s
  | .autoRequest => autoRequest v s
  | .estop => estop v s
  | .continue_ => (continueSeq v s).2
  | .strokeDone => s

/-- A NOTICE reaches the Sample Unit and is routed (R32, R33). -/
def takeNotice (f : Frame) (s : State) : State :=
  match findPoint s.tables f.source.toNat (byteAt f.payload 0), noticeCodeOf (byteAt f.payload 1) with
  | some row, some code =>
    let p := pointRow s.tables row
    match p.kind, p.binding, code with
    | .panel, .vessel v, c => panelNotice v row c s
    | .doseDrive, _, .strokeDone =>
      if lineValid s.tables && (lineRow s.tables).dose == row then strokeDone s else s
    | _, _, _ => s
  | _, _ => s

/-! ### Frame errors (R6, R7) -/

/-- A frame error: the count saturates at 255, and FRAME_ERRORS is set (R6). -/
def frameError (s : State) : State :=
  latch .frameErrors (withLoop (fun l => { l with frameErrors := saturate 255 l.frameErrors }) s)

/-- Whether a station number is one of the ring's, 1 to 254 (R6). -/
def stationOk (b : Byte) : Bool := decide (1 ≤ b.toNat ∧ b.toNat ≤ 254)

/-- The checks of R6 on a complete frame. -/
def frameSound (f : Frame) : Bool :=
  f.check == crc16 f.covered && knownKind f.kind && stationOk f.dest && stationOk f.source

/-- The payload shape of a DRIVE (R7). -/
def driveShape (p : List Byte) : Bool :=
  p.length == 4 && decide (byteAt p 0 ≤ 15) && decide (byteAt p 1 ≤ 2) && decide (numAt p 2 2 ≤ 1000)

/-- The payload shape of a NOTICE (R7). -/
def noticeShape (p : List Byte) : Bool :=
  p.length == 3 && decide (byteAt p 0 ≤ 15) && (noticeCodeOf (byteAt p 1)).isSome

/-- The payload shape of R7; other kinds have none. -/
def shapeOk (f : Frame) : Bool :=
  if f.kind = kindSample then (sampleItems f.payload).isSome
  else if f.kind = kindDrive then driveShape f.payload
  else if f.kind = kindNotice then noticeShape f.payload
  else true

/-! ### Disposition (R8 to R11, R43 to R45) -/

/-- The dispositions of R8. -/
inductive Disposition where
  | removed | stray | consumed | forwarded
deriving DecidableEq, Repr

/-- The first row of R8 that a frame matches. -/
def disposition (station : Byte) (f : Frame) : Disposition :=
  if f.source = station then .removed
  else if 64 ≤ f.hop.toNat then .stray
  else if f.dest = station then .consumed
  else .forwarded

/-- A frame with its hop count raised and its check recomputed (R10). -/
def Frame.forwarded (f : Frame) : Frame := ({ f with hop := f.hop + 1 } : Frame).sealed

/-- A frame that goes on enters the transit buffer, or is lost in a transit overrun (R11). -/
def enterTransit (f : Frame) (s : State) : State :=
  if 2 ≤ s.loop.transit.length then frameError s
  else startNext (withLoop (fun l => { l with transit := l.transit ++ [f.forwarded] }) s)

/-- A passing DRIVE under the guard decision (R43 to R45). -/
def guardFrame (f : Frame) (s : State) : State :=
  match guardDecision s f with
  | .forward => enterTransit f s
  | .forged (some v) => raiseVessel .forgedOrigin v (.num f.source.toNat) s
  | .forged none => raise .forgedOrigin .none none (.num f.source.toNat) s
  | .refuse v row => raiseVessel .panelRefused v (.num row) s
  | .hold v row => holdFrame f v row s

/-- A frame is given to the tap of its kind and goes on, unless the guard stops it (R10). -/
def forwardFrame (f : Frame) (s : State) : State :=
  if f.kind = kindSample then enterTransit f (takeSample f s)
  else if f.kind = kindNotice then enterTransit f (takeNotice f s)
  else if f.kind = kindDrive then guardFrame f s
  else enterTransit f s

/-- A frame for the part is handled by kind (R9). -/
def consumeFrame (f : Frame) (s : State) : State :=
  if f.kind = kindManage then queueRequest { source := f.source, tag := f.tag, payload := f.payload } s
  else if f.kind = kindSample then takeSample f s
  else if f.kind = kindNotice then takeNotice f s
  else s

/-- LINK_DOWN and the LINK causes clear at a frame that is not a frame error (R12), and the blocks settle before the
frame is handled (log 8). -/
def linkUp (s : State) : State :=
  if s.loop.linkDown then settle (syncAllCauses (withLoop (fun l => { l with linkDown := false }) s)) else s

/-- What becomes of a complete frame (R6 to R12). -/
def frameArrived (f : Frame) (s : State) : State :=
  if frameSound f && shapeOk f then
    let s := linkUp s
    match disposition s.stationAddress f with
    | .removed | .stray => s
    | .consumed => consumeFrame f s
    | .forwarded => forwardFrame f s
  else frameError s

/-! ### Reception (R1, R5) -/

/-- What the reception buffer has come to (R5): more bytes to come, a Length above 120, or a whole frame. -/
inductive Reception where
  | more (buffer : List Byte)
  | tooLong
  | whole (bytes : List Byte)
deriving DecidableEq, Repr

/-- The state of a reception from its bytes so far; bytes past the frame's end are no part of it. -/
def received (buffer : List Byte) : Reception :=
  match frameLength buffer with
  | none => .more buffer
  | some n =>
    if 128 < n then .tooLong
    else if n ≤ buffer.length then .whole (buffer.take n) else .more buffer

/-- The Loop Port goes on from what it has received. -/
def receptionStep (r : Reception) (s : State) : State :=
  match r with
  | .more b => withLoop (fun l => { l with rx := some b }) s
  | .tooLong => frameError (withLoop (fun l => { l with rx := none }) s)
  | .whole bytes => frameArrived (Frame.ofBytes bytes) (withLoop (fun l => { l with rx := none }) s)

/-- The open frame, if there is one, is truncated: a frame error (R1). -/
def truncate (s : State) : State :=
  if s.loop.rx.isSome then frameError (withLoop (fun l => { l with rx := none }) s) else s

/-- A character received without a fault restarts the link timer (R1, R12). -/
def restartLink (s : State) : State := withLoop (fun l => { l with linkTimer := some s.loopTime }) s

/-- The control characters (1.1). -/
def idleChar : Byte := 0x55
def startChar : Byte := 0xA3

/-- Whether a character is a fault (R1). -/
def Character.fault (c : Character) : Bool :=
  !c.stop || (c.control && c.value != idleChar && c.value != startChar)

/-- A character of the upstream pair in ACTIVE mode (R1). -/
def receiveCharacter (c : Character) (s : State) : State :=
  if Character.fault c then truncate s
  else
    let s := restartLink s
    if c.control then
      let s := truncate s
      if c.value = startChar then withLoop (fun l => { l with rx := some [] }) s else s
    else
      match s.loop.rx with
      | none => s
      | some b => receptionStep (received (b ++ [c.value])) s

/-- The bytes of a frame up to and with its last check byte arrive: the rest of the open frame, or with none open a
whole frame from its START on (log 5). -/
def receiveFrame (bytes : List Byte) (s : State) : State :=
  receptionStep (received (s.loop.rx.getD [] ++ bytes)) (restartLink s)

/-! ### Sending (R17) -/

/-- The downstream port has finished a frame and its two IDLE characters: a transit frame frees its place, and the
arbiter chooses (R11, R17). -/
def frameSent (s : State) : State :=
  match s.loop.port with
  | .idle => s
  | .sendingTransit => startNext (withLoop (fun l => { l with transit := l.transit.tail, port := .idle }) s)
  | .sendingInsertion _ => startNext (withLoop (fun l => { l with port := .idle }) s)

end Sys2Proof.Machine
end

