-- ==== Sys2Proof/Machine/LoopCommands.lean ====
section
/-! DEFINITION. The commands of the resets, the input pins and the loop: one meaning for each. -/

namespace Sys2Proof.Machine

/-- A command taken in ACTIVE mode, after which the blocks settle; in any other mode nothing happens (R2, R4,
log 14). -/
def whenActive (f : State → State) (s : State) : State := if s.mode = .active then settle (f s) else s

/-! ### Resets (R2, R3) -/

/-- FULL_RESET (R3). -/
def execFullReset (resetInput : Bool) (pins : Byte) (s : State) : Host.Outcome State Fault Refusal :=
  .next (fullReset resetInput pins s)

/-- RESET_INPUT_RELEASED (R2). -/
def execResetInputReleased (pins : Byte) (s : State) : Host.Outcome State Fault Refusal :=
  .next (releaseReset pins s)

/-! ### Input pins (R163, R184) -/

/-- The power-fail warning takes effect in the blocks: POWER causes, the cast, and a read that waited behind a record
that is now held (R76, R124, R166). The sequencers' drives come before the cast pump's (DESIGN CHOICE, log 49). -/
def powerFailEffect (s : State) : State := startRead (castPowerFail (syncAllCauses s))

/-- POWER_FAIL_WARNING (R184): the level is the pin's in every mode; an assertion already taken does nothing
more (log 34). -/
def execPowerFailWarning (s : State) : Host.Outcome State Fault Refusal :=
  if s.pins.powerFail then .next s
  else .next (whenActive powerFailEffect { s with pins := { s.pins with powerFail := true } })

/-- POWER_WARNING_WITHDRAWN (R184). -/
def execPowerWarningWithdrawn (s : State) : Host.Outcome State Fault Refusal :=
  .next (whenActive syncAllCauses { s with pins := { s.pins with powerFail := false } })

/-- JOURNAL_PROTECT_ASSERTED (R163): a write in progress runs on, and no write begins. A read that waited behind a
record takes the free store, since the record is now held (R166). -/
def execJournalProtectAsserted (s : State) : Host.Outcome State Fault Refusal :=
  .next (whenActive startRead { s with pins := { s.pins with protect := true } })

/-- JOURNAL_PROTECT_WITHDRAWN (R163): the record at the head of the queue may be written. -/
def execJournalProtectWithdrawn (s : State) : Host.Outcome State Fault Refusal :=
  .next (whenActive id { s with pins := { s.pins with protect := false } })

/-! ### The loop (R1, R4, R5, R12, R17) -/

/-- CHARACTER_RECEIVED (R1); in BYPASS mode the character is repeated downstream (R4). -/
def execCharacterReceived (c : Character) (s : State) : Host.Outcome State Fault Refusal :=
  match s.mode with
  | .inReset => .next s
  | .bypass => .next (withLoop (fun l => { l with repeated := some c }) s)
  | .active => .next (settle (receiveCharacter c s))

/-- FRAME_COMPLETE (R5). -/
def execFrameComplete (bytes : List Byte) (s : State) : Host.Outcome State Fault Refusal :=
  .next (whenActive (receiveFrame bytes) s)

/-- DOWNSTREAM_FRAME_SENT (R17). -/
def execDownstreamFrameSent (s : State) : Host.Outcome State Fault Refusal := .next (whenActive frameSent s)

/-- Whether the link timer has reached 250 ms (R12). -/
def linkDue (s : State) : Bool := timerDue s.loopTime s.loop.linkTimer 250

/-- LINK_DOWN is set, and the LINK causes with it (R12). -/
def linkExpired (s : State) : State :=
  syncAllCauses (withLoop (fun l => { l with linkDown := true, linkTimer := none }) s)

/-- LINK_TIMER_EXPIRY (R12). -/
def execLinkTimerExpiry (s : State) : Host.Outcome State Fault Refusal :=
  if linkDue s then .next (whenActive linkExpired s) else .next s

end Sys2Proof.Machine
end

