-- ==== Sys2Proof/Machine/TimerCommands.lean ====
section
/-! DEFINITION. The commands of the part's own timers: one meaning for each. An expiry is taken when its timer runs
and has reached its limit, and does nothing otherwise (R21, log 3). -/

namespace Sys2Proof.Machine

/-- STALE_EXPIRY (R28). -/
def execStaleExpiry (row : Nat) (s : State) : Host.Outcome State Fault Refusal :=
  if staleDue s row then .next (whenActive (staleExpired row) s) else .next s

/-- HOLD_SLOT_EXPIRY (R48). -/
def execHoldSlotExpiry (slot : Nat) (s : State) : Host.Outcome State Fault Refusal :=
  if holdSlotDue s slot then .next (whenActive (expireSlot slot) s) else .next s

/-- REFRESH_TIMER_EXPIRY (R93). -/
def execRefreshTimerExpiry (v : Vessel) (s : State) : Host.Outcome State Fault Refusal :=
  if refreshDue s v then .next (whenActive (refreshExpiry v) s) else .next s

/-- HOLD_TIMER_EXPIRY (R88). -/
def execHoldTimerExpiry (v : Vessel) (s : State) : Host.Outcome State Fault Refusal :=
  if holdDue s v then .next (whenActive (completeStep v) s) else .next s

/-- Whether the confirm timer has run out (R102). -/
def confirmDue (s : State) : Bool := timerDue s.loopTime s.boil.confirmTimer 120000

/-- CONFIRM_TIMER_EXPIRY (R102). -/
def execConfirmTimerExpiry (s : State) : Host.Outcome State Fault Refusal :=
  if confirmDue s then .next (whenActive confirmExpiry s) else .next s

/-- Whether the stroke timer has run out (R134). -/
def strokeDue (s : State) : Bool :=
  s.castMeter.record.any fun c => c.state.pitches && c.pitch.any fun p =>
    timerDue s.loopTime p.strokeTimer (lineRow s.tables).strokeTimeout

/-- STROKE_TIMER_EXPIRY (R134). -/
def execStrokeTimerExpiry (s : State) : Host.Outcome State Fault Refusal :=
  if strokeDue s then .next (whenActive strokeTimeout s) else .next s

/-- Whether the settle timer has run out (R123). -/
def settleDue (s : State) : Bool :=
  s.castMeter.record.any fun c => c.state == .settling && timerDue s.loopTime c.settleTimer (lineRow s.tables).settle

/-- SETTLE_TIMER_EXPIRY (R123). -/
def execSettleTimerExpiry (s : State) : Host.Outcome State Fault Refusal :=
  if settleDue s then .next (whenActive settleExpiry s) else .next s

/-! ### The report timer (R178, R181) -/

/-- Whether the report timer has run out (R181, R183). -/
def reportDue (s : State) : Bool := timerDue s.loopTime s.agent.reportTimer s.agent.reportLimit

/-- Whether the condition set holds a member in neither the acknowledged nor the reported set (R178). -/
def unreportedCond (a : Agent) : Bool := a.conditions.any fun c => !a.acked.contains c && !a.reported.contains c

/-- The body of an EVENTS report: the count and up to 7 entries of the head of the queue (R181, R182). -/
def eventsBody (events : List Event) : List Byte := listField eventBytes (events.take 7)

/-- The entries of a report leave the event queue; at 16 entries or fewer shedding turns off (R180, R181). -/
def dropReported (a : Agent) : Agent :=
  let rest := a.events.drop 7
  { a with events := rest, shedding := a.shedding && decide (16 < rest.length) }

/-- An EVENTS report is built when there is an address, an event and a free place (R181). -/
def reportEvents (s : State) : State :=
  if s.agent.config.supervisor = 0 ∨ s.agent.events = [] ∨ 32 ≤ s.loop.queue.length then s
  else
    withAgent dropReported (offer (reportFrame s 2 (eventsBody s.agent.events)) .agent s).2

/-- The report timer expires: it restarts, a due ATTENTION is offered, then an EVENTS report (R178, R181). -/
def reportExpiry (s : State) : State :=
  let s := withAgent (fun a => { a with reportTimer := some s.loopTime, reportLimit := a.config.interval }) s
  reportEvents (if unreportedCond s.agent then attention s else s)

/-- REPORT_TIMER_EXPIRY (R181). -/
def execReportTimerExpiry (s : State) : Host.Outcome State Fault Refusal :=
  if reportDue s then .next (whenActive reportExpiry s) else .next s

end Sys2Proof.Machine
end

