-- ==== Sys2Proof/Machine/WorkCommands.lean ====
section
/-! DEFINITION. The commands of the part's follow-on steps and of the journal store: one meaning for each. A step
whose condition does not hold does nothing (log 6). -/

namespace Sys2Proof.Machine

/-- Whether a blocked TRANSFER step can take effect: no cause, and its destination available (R64). -/
def canUnblock (s : State) (v : Vessel) : Bool :=
  let q := s.seqs.get v
  q.state == .blocked && q.blocked == some .destinationBusy && (destinationOf v).any (available s)

/-- TRANSFER_UNBLOCKED (R64). -/
def execTransferUnblocked (source : Vessel) (s : State) : Host.Outcome State Fault Refusal :=
  if canUnblock s source then .next (whenActive (advance 256 source) s) else .next s

/-- Whether a reason is a refused cast open. -/
def BlockReason.isCast : BlockReason → Bool
  | .castRefused _ => true
  | .destinationBusy => false

/-- Whether the whirlpool sequencer is BLOCKED with CAST_REFUSED (R113). -/
def canRetryOpen (s : State) : Bool :=
  let q := s.seqs.get .whirlpool
  q.state == .blocked && q.blocked.any BlockReason.isCast

/-- CAST_OPEN_RETRY (R113). -/
def execCastOpenRetry (s : State) : Host.Outcome State Fault Refusal :=
  if canRetryOpen s then .next (whenActive (advance 256 .whirlpool) s) else .next s

/-- A kept CAST_CLOSE record is offered again (R125). -/
def reofferClose (s : State) : State :=
  match s.castMeter.keptClose with
  | some d => offerClose d s
  | none => s

/-- CAST_CLOSE_REOFFER (R125). -/
def execCastCloseReoffer (s : State) : Host.Outcome State Fault Refusal := .next (whenActive reofferClose s)

/-- A first activation: the TARIFF record of the bank is offered, and the state becomes ACTIVATING (R149). -/
def firstActivate (s : State) : State :=
  match offerTariff s with
  | some t => withDuty (fun u => { u with tariff := .activating }) t
  | none => s

/-- FIRST_ACTIVATION (R149). -/
def execFirstActivation (s : State) : Host.Outcome State Fault Refusal :=
  if canActivate s then .next (whenActive firstActivate s) else .next s

/-- JOURNAL_WRITE_BEGIN (R161). -/
def execJournalWriteBegin (s : State) : Host.Outcome State Fault Refusal := .next (whenActive writeIfPossible s)

/-- JOURNAL_ERASE_DONE (R161). -/
def execJournalEraseDone (s : State) : Host.Outcome State Fault Refusal := .next (whenActive eraseDone s)

/-- JOURNAL_PROGRAM_DONE (R161). -/
def execJournalProgramDone (s : State) : Host.Outcome State Fault Refusal := .next (whenActive programDone s)

/-- JOURNAL_READBACK_DONE (R161). -/
def execJournalReadbackDone (a : StoreAnswer) (s : State) : Host.Outcome State Fault Refusal :=
  .next (whenActive (readbackDone a) s)

/-- JOURNAL_READ_BLOCK_DONE (R166). -/
def execJournalReadBlockDone (a : StoreAnswer) (s : State) : Host.Outcome State Fault Refusal :=
  .next (whenActive (readBlockDone a) s)

/-- MOUNT_BLOCK_READ_DONE (R167). -/
def execMountBlockReadDone (a : StoreAnswer) (s : State) : Host.Outcome State Fault Refusal :=
  .next (whenActive (mountBlockDone a) s)

end Sys2Proof.Machine
end

