-- ==== Sys2Proof/Machine/RequestCommands.lean ====
section
/-! DEFINITION. The commands of the requests: one meaning for each. A request's parameters are read as R172 codes
them; what R171 calls malformed or out of range is answered BAD_REQUEST. -/

namespace Sys2Proof.Machine

/-- STATUS_READ (R179): the reading of its parameters and its effect; BAD_REQUEST carries no page (log 15). -/
def serveStatusRead (rq : Request) (s : State) : State :=
  match parseReq s.stationAddress 1 rq.params with
  | some (.statusRead page) => doStatusRead page rq s
  | _ => answer 1 rq .badRequest [] s

/-- STATUS_READ (R179). -/
def execStatusRead (rq : Request) (s : State) : Host.Outcome State Fault Refusal :=
  .next (onRequest (queuedOf 1 rq) (serveStatusRead rq) s)

/-- CLEAR_CONDITIONS (R177): the reading of its parameters and its effect. -/
def serveClearConditions (rq : Request) (s : State) : State :=
  match parseReq s.stationAddress 2 rq.params with
  | some (.clearConditions set) => doClearConditions set rq s
  | _ => answer 2 rq .badRequest [] s

/-- CLEAR_CONDITIONS (R177). -/
def execClearConditions (rq : Request) (s : State) : Host.Outcome State Fault Refusal :=
  .next (onRequest (queuedOf 2 rq) (serveClearConditions rq) s)

/-- TABLE_WINDOW (R174): the reading of its parameters and its effect. -/
def serveTableWindow (rq : Request) (s : State) : State :=
  match parseReq s.stationAddress 3 rq.params with
  | some (.tableWindow w) => doTableWindow w rq s
  | _ => answer 3 rq .badRequest [] s

/-- TABLE_WINDOW (R174). -/
def execTableWindow (rq : Request) (s : State) : Host.Outcome State Fault Refusal :=
  .next (onRequest (queuedOf 3 rq) (serveTableWindow rq) s)

/-- TABLE_WRITE (R175): the reading of its parameters and its effect. -/
def serveTableWrite (rq : Request) (s : State) : State :=
  match parseReq s.stationAddress 4 rq.params with
  | some (.tableWrite cells) => doTableWrite cells rq s
  | _ => answer 4 rq .badRequest [] s

/-- TABLE_WRITE (R175). -/
def execTableWrite (rq : Request) (s : State) : Host.Outcome State Fault Refusal :=
  .next (onRequest (queuedOf 4 rq) (serveTableWrite rq) s)

/-- TABLE_READ (R176): the reading of its parameters and its effect. -/
def serveTableRead (rq : Request) (s : State) : State :=
  match parseReq s.stationAddress 5 rq.params with
  | some (.tableRead count) => doTableRead count rq s
  | _ => answer 5 rq .badRequest [] s

/-- TABLE_READ (R176). -/
def execTableRead (rq : Request) (s : State) : Host.Outcome State Fault Refusal :=
  .next (onRequest (queuedOf 5 rq) (serveTableRead rq) s)

/-- PART_CONFIG (R183): the reading of its parameters and its effect. -/
def servePartConfig (rq : Request) (s : State) : State :=
  match parseReq s.stationAddress 6 rq.params with
  | some (.partConfig c) => doPartConfig c rq s
  | _ => answer 6 rq .badRequest [] s

/-- PART_CONFIG (R183). -/
def execPartConfig (rq : Request) (s : State) : Host.Outcome State Fault Refusal :=
  .next (onRequest (queuedOf 6 rq) (servePartConfig rq) s)

/-- BREW_OPEN (R55): the reading of its parameters and its effect. -/
def serveBrewOpen (rq : Request) (s : State) : State :=
  match parseReq s.stationAddress 8 rq.params with
  | some (.brewOpen f) => doBrewOpen f rq s
  | _ => answer 8 rq .badRequest [] s

/-- BREW_OPEN (R55). -/
def execBrewOpen (rq : Request) (s : State) : Host.Outcome State Fault Refusal :=
  .next (onRequest (queuedOf 8 rq) (serveBrewOpen rq) s)

/-- BREW_ASSIGN (R57): the reading of its parameters and its effect. -/
def serveBrewAssign (rq : Request) (s : State) : State :=
  match parseReq s.stationAddress 9 rq.params with
  | some (.brewAssign n) => doBrewAssign n rq s
  | _ => answer 9 rq .badRequest [] s

/-- BREW_ASSIGN (R57). -/
def execBrewAssign (rq : Request) (s : State) : Host.Outcome State Fault Refusal :=
  .next (onRequest (queuedOf 9 rq) (serveBrewAssign rq) s)

/-- BREW_ABANDON (R58): the reading of its parameters and its effect. -/
def serveBrewAbandon (rq : Request) (s : State) : State :=
  match parseReq s.stationAddress 10 rq.params with
  | some (.brewAbandon n) => doBrewAbandon n rq s
  | _ => answer 10 rq .badRequest [] s

/-- BREW_ABANDON (R58). -/
def execBrewAbandon (rq : Request) (s : State) : Host.Outcome State Fault Refusal :=
  .next (onRequest (queuedOf 10 rq) (serveBrewAbandon rq) s)

/-- BREW_RELEASE (R59): the reading of its parameters and its effect. -/
def serveBrewRelease (rq : Request) (s : State) : State :=
  match parseReq s.stationAddress 11 rq.params with
  | some (.brewRelease n) => doBrewRelease n rq s
  | _ => answer 11 rq .badRequest [] s

/-- BREW_RELEASE (R59). -/
def execBrewRelease (rq : Request) (s : State) : Host.Outcome State Fault Refusal :=
  .next (onRequest (queuedOf 11 rq) (serveBrewRelease rq) s)

/-- BREW_READ (R59): the reading of its parameters and its effect; BAD_REQUEST carries no page (log 15). -/
def serveBrewRead (rq : Request) (s : State) : State :=
  match parseReq s.stationAddress 12 rq.params with
  | some (.brewRead n page) => doBrewRead n page rq s
  | _ => answer 12 rq .badRequest [] s

/-- BREW_READ (R59). -/
def execBrewRead (rq : Request) (s : State) : Host.Outcome State Fault Refusal :=
  .next (onRequest (queuedOf 12 rq) (serveBrewRead rq) s)

/-- VESSEL_CLEAR (R68): the reading of its parameters and its effect. -/
def serveVesselClear (rq : Request) (s : State) : State :=
  match parseReq s.stationAddress 13 rq.params with
  | some (.vesselClear v) => doVesselClear v rq s
  | _ => answer 13 rq .badRequest [] s

/-- VESSEL_CLEAR (R68). -/
def execVesselClear (rq : Request) (s : State) : Host.Outcome State Fault Refusal :=
  .next (onRequest (queuedOf 13 rq) (serveVesselClear rq) s)

/-- VESSEL_START (R80): the reading of its parameters and its effect. -/
def serveVesselStart (rq : Request) (s : State) : State :=
  match parseReq s.stationAddress 14 rq.params with
  | some (.vesselStart v) => doVesselStart v rq s
  | _ => answer 14 rq .badRequest [] s

/-- VESSEL_START (R80). -/
def execVesselStart (rq : Request) (s : State) : Host.Outcome State Fault Refusal :=
  .next (onRequest (queuedOf 14 rq) (serveVesselStart rq) s)

/-- GROUP_START (R81): the reading of its parameters and its effect. -/
def serveGroupStart (rq : Request) (s : State) : State :=
  match parseReq s.stationAddress 15 rq.params with
  | some (.groupStart g) => doGroupStart g rq s
  | _ => answer 15 rq .badRequest [] s

/-- GROUP_START (R81). -/
def execGroupStart (rq : Request) (s : State) : Host.Outcome State Fault Refusal :=
  .next (onRequest (queuedOf 15 rq) (serveGroupStart rq) s)

/-- VESSEL_HALT (R84): the reading of its parameters and its effect. -/
def serveVesselHalt (rq : Request) (s : State) : State :=
  match parseReq s.stationAddress 16 rq.params with
  | some (.vesselHalt v) => doVesselHalt v rq s
  | _ => answer 16 rq .badRequest [] s

/-- VESSEL_HALT (R84). -/
def execVesselHalt (rq : Request) (s : State) : Host.Outcome State Fault Refusal :=
  .next (onRequest (queuedOf 16 rq) (serveVesselHalt rq) s)

/-- CONTINUE (R83): the reading of its parameters and its effect. -/
def serveContinueStep (rq : Request) (s : State) : State :=
  match parseReq s.stationAddress 17 rq.params with
  | some (.continueStep v) => doContinue v rq s
  | _ => answer 17 rq .badRequest [] s

/-- CONTINUE (R83). -/
def execContinueStep (rq : Request) (s : State) : Host.Outcome State Fault Refusal :=
  .next (onRequest (queuedOf 17 rq) (serveContinueStep rq) s)

/-- AUTHORITY (R40): the reading of its parameters and its effect. -/
def serveAuthority (rq : Request) (s : State) : State :=
  match parseReq s.stationAddress 18 rq.params with
  | some (.authority v a) => doAuthority v a rq s
  | _ => answer 18 rq .badRequest [] s

/-- AUTHORITY (R40). -/
def execAuthority (rq : Request) (s : State) : Host.Outcome State Fault Refusal :=
  .next (onRequest (queuedOf 18 rq) (serveAuthority rq) s)

/-- LOCK (R41): the reading of its parameters and its effect. -/
def serveLock (rq : Request) (s : State) : State :=
  match parseReq s.stationAddress 19 rq.params with
  | some (.lock mask on) => doLock mask on rq s
  | _ => answer 19 rq .badRequest [] s

/-- LOCK (R41). -/
def execLock (rq : Request) (s : State) : Host.Outcome State Fault Refusal :=
  .next (onRequest (queuedOf 19 rq) (serveLock rq) s)

/-- RELEASE (R46): the reading of its parameters and its effect. -/
def serveRelease (rq : Request) (s : State) : State :=
  match parseReq s.stationAddress 20 rq.params with
  | some (.release slot) => doRelease slot rq s
  | _ => answer 20 rq .badRequest [] s

/-- RELEASE (R46). -/
def execRelease (rq : Request) (s : State) : Host.Outcome State Fault Refusal :=
  .next (onRequest (queuedOf 20 rq) (serveRelease rq) s)

/-- DISCARD (R47): the reading of its parameters and its effect. -/
def serveDiscard (rq : Request) (s : State) : State :=
  match parseReq s.stationAddress 21 rq.params with
  | some (.discard slot) => doDiscard slot rq s
  | _ => answer 21 rq .badRequest [] s

/-- DISCARD (R47). -/
def execDiscard (rq : Request) (s : State) : Host.Outcome State Fault Refusal :=
  .next (onRequest (queuedOf 21 rq) (serveDiscard rq) s)

/-- CAST_END (R122): the reading of its parameters and its effect. -/
def serveCastEnd (rq : Request) (s : State) : State :=
  match parseReq s.stationAddress 22 rq.params with
  | some .castEnd => doCastEnd rq s
  | _ => answer 22 rq .badRequest [] s

/-- CAST_END (R122). -/
def execCastEnd (rq : Request) (s : State) : Host.Outcome State Fault Refusal :=
  .next (onRequest (queuedOf 22 rq) (serveCastEnd rq) s)

/-- CAST_READ (R111): the reading of its parameters and its effect; BAD_REQUEST carries no page (log 15). -/
def serveCastRead (rq : Request) (s : State) : State :=
  match parseReq s.stationAddress 23 rq.params with
  | some (.castRead page) => doCastRead page rq s
  | _ => answer 23 rq .badRequest [] s

/-- CAST_READ (R111). -/
def execCastRead (rq : Request) (s : State) : Host.Outcome State Fault Refusal :=
  .next (onRequest (queuedOf 23 rq) (serveCastRead rq) s)

/-- CAST_SETTLE (R155): the reading of its parameters and its effect. -/
def serveCastSettle (rq : Request) (s : State) : State :=
  match parseReq s.stationAddress 24 rq.params with
  | some (.castSettle n v g) => doCastSettle n v g rq s
  | _ => answer 24 rq .badRequest [] s

/-- CAST_SETTLE (R155). -/
def execCastSettle (rq : Request) (s : State) : Host.Outcome State Fault Refusal :=
  .next (onRequest (queuedOf 24 rq) (serveCastSettle rq) s)

/-- PERIOD_CLOSE (R153): the reading of its parameters and its effect. -/
def servePeriodClose (rq : Request) (s : State) : State :=
  match parseReq s.stationAddress 25 rq.params with
  | some (.periodClose y) => doPeriodClose y rq s
  | _ => answer 25 rq .badRequest [] s

/-- PERIOD_CLOSE (R153). -/
def execPeriodClose (rq : Request) (s : State) : Host.Outcome State Fault Refusal :=
  .next (onRequest (queuedOf 25 rq) (servePeriodClose rq) s)

/-- DUTY_READ (R152): the reading of its parameters and its effect. -/
def serveDutyRead (rq : Request) (s : State) : State :=
  match parseReq s.stationAddress 26 rq.params with
  | some .dutyRead => doDutyRead rq s
  | _ => answer 26 rq .badRequest [] s

/-- DUTY_READ (R152). -/
def execDutyRead (rq : Request) (s : State) : Host.Outcome State Fault Refusal :=
  .next (onRequest (queuedOf 26 rq) (serveDutyRead rq) s)

/-- JOURNAL_READ (R166): the reading of its parameters and its effect; BAD_REQUEST carries no page (log 15). -/
def serveJournalRead (rq : Request) (s : State) : State :=
  match parseReq s.stationAddress 27 rq.params with
  | some (.journalRead q n page) => doJournalRead q n page rq s
  | _ => answer 27 rq .badRequest [] s

/-- JOURNAL_READ (R166). -/
def execJournalRead (rq : Request) (s : State) : Host.Outcome State Fault Refusal :=
  .next (onRequest (queuedOf 27 rq) (serveJournalRead rq) s)

/-- JOURNAL_RELEASE (R165): the reading of its parameters and its effect. -/
def serveJournalRelease (rq : Request) (s : State) : State :=
  match parseReq s.stationAddress 28 rq.params with
  | some (.journalRelease q) => doJournalRelease q rq s
  | _ => answer 28 rq .badRequest [] s

/-- JOURNAL_RELEASE (R165). -/
def execJournalRelease (rq : Request) (s : State) : Host.Outcome State Fault Refusal :=
  .next (onRequest (queuedOf 28 rq) (serveJournalRelease rq) s)

/-- JOURNAL_RETRY (R162): the reading of its parameters and its effect. -/
def serveJournalRetry (rq : Request) (s : State) : State :=
  match parseReq s.stationAddress 29 rq.params with
  | some .journalRetry => doJournalRetry rq s
  | _ => answer 29 rq .badRequest [] s

/-- JOURNAL_RETRY (R162). -/
def execJournalRetry (rq : Request) (s : State) : Host.Outcome State Fault Refusal :=
  .next (onRequest (queuedOf 29 rq) (serveJournalRetry rq) s)

/-! ### RESET and unknown codes -/

/-- RESET (R184), by the level its parameters name: the two levels are two rows of the table (log 33). -/
def serveReset (address : Byte) (rq : Request) (s : State) : State :=
  match parseReq s.stationAddress 7 rq.params with
  | some (.reset false) => doResetFull address rq s
  | some (.reset true) => doResetVessels rq s
  | _ => answer 7 rq .badRequest [] s

/-- RESET_FULL (R184), with the levels of the address pins, which the full reset reads. -/
def execResetFull (rq : Request) (pins : Byte) (s : State) : Host.Outcome State Fault Refusal :=
  .next (onRequest (queuedOf 7 rq) (serveReset pins rq) s)

/-- RESET_VESSELS (R184). -/
def execResetVessels (rq : Request) (s : State) : Host.Outcome State Fault Refusal :=
  .next (onRequest (queuedOf 7 rq) (serveReset s.pins.address rq) s)

/-- Whether the first byte of a payload is one of the 29 request codes. -/
def knownCode (payload : List Byte) : Bool :=
  match payload.head? with
  | some c => decide (1 ≤ c.toNat ∧ c.toNat ≤ 29)
  | none => false

/-- UNKNOWN_REQUEST_CODE (R171): answered BAD_REQUEST with the code it carries, and nothing else changes. A payload
whose code is known is another row's, and nothing happens (log 33). -/
def execUnknownRequestCode (source tag : Byte) (payload : List Byte) (s : State) :
    Host.Outcome State Fault Refusal :=
  if knownCode payload then .next s
  else
    .next (onRequest { source := source, tag := tag, payload := payload }
      (fun s => (reply source tag (payload.headD Config.missingCode) .badRequest [] s).2) s)

end Sys2Proof.Machine
end

