-- ==== Sys2Proof/Machine/Dispatch.lean ====
section
/-! DEFINITION. The arms of the commands, one direct call of a meaning each. -/

namespace Sys2Proof.Machine

def exec (i : Instr) (s : State) : Host.Outcome State Fault Refusal :=
  match i with
  | .fullReset resetInput pins => Sys2Proof.Machine.execFullReset resetInput pins s
  | .frameComplete bytes => Sys2Proof.Machine.execFrameComplete bytes s
  | .linkTimerExpiry => Sys2Proof.Machine.execLinkTimerExpiry s
  | .downstreamFrameSent => Sys2Proof.Machine.execDownstreamFrameSent s
  | .staleExpiry row => Sys2Proof.Machine.execStaleExpiry row s
  | .holdSlotExpiry slot => Sys2Proof.Machine.execHoldSlotExpiry slot s
  | .refreshTimerExpiry vessel => Sys2Proof.Machine.execRefreshTimerExpiry vessel s
  | .holdTimerExpiry vessel => Sys2Proof.Machine.execHoldTimerExpiry vessel s
  | .transferUnblocked source => Sys2Proof.Machine.execTransferUnblocked source s
  | .confirmTimerExpiry => Sys2Proof.Machine.execConfirmTimerExpiry s
  | .castOpenRetry => Sys2Proof.Machine.execCastOpenRetry s
  | .strokeTimerExpiry => Sys2Proof.Machine.execStrokeTimerExpiry s
  | .settleTimerExpiry => Sys2Proof.Machine.execSettleTimerExpiry s
  | .castCloseReoffer => Sys2Proof.Machine.execCastCloseReoffer s
  | .firstActivation => Sys2Proof.Machine.execFirstActivation s
  | .powerFailWarning => Sys2Proof.Machine.execPowerFailWarning s
  | .powerWarningWithdrawn => Sys2Proof.Machine.execPowerWarningWithdrawn s
  | .journalProtectAsserted => Sys2Proof.Machine.execJournalProtectAsserted s
  | .journalProtectWithdrawn => Sys2Proof.Machine.execJournalProtectWithdrawn s
  | .journalWriteBegin => Sys2Proof.Machine.execJournalWriteBegin s
  | .journalEraseDone => Sys2Proof.Machine.execJournalEraseDone s
  | .journalProgramDone => Sys2Proof.Machine.execJournalProgramDone s
  | .journalReadbackDone answer => Sys2Proof.Machine.execJournalReadbackDone answer s
  | .journalReadBlockDone answer => Sys2Proof.Machine.execJournalReadBlockDone answer s
  | .mountBlockReadDone answer => Sys2Proof.Machine.execMountBlockReadDone answer s
  | .reportTimerExpiry => Sys2Proof.Machine.execReportTimerExpiry s
  | .statusRead request => Sys2Proof.Machine.execStatusRead request s
  | .clearConditions request => Sys2Proof.Machine.execClearConditions request s
  | .tableWindow request => Sys2Proof.Machine.execTableWindow request s
  | .tableWrite request => Sys2Proof.Machine.execTableWrite request s
  | .tableRead request => Sys2Proof.Machine.execTableRead request s
  | .partConfig request => Sys2Proof.Machine.execPartConfig request s
  | .resetFull request pins => Sys2Proof.Machine.execResetFull request pins s
  | .resetVessels request => Sys2Proof.Machine.execResetVessels request s
  | .brewOpen request => Sys2Proof.Machine.execBrewOpen request s
  | .brewAssign request => Sys2Proof.Machine.execBrewAssign request s
  | .brewAbandon request => Sys2Proof.Machine.execBrewAbandon request s
  | .brewRelease request => Sys2Proof.Machine.execBrewRelease request s
  | .brewRead request => Sys2Proof.Machine.execBrewRead request s
  | .vesselClear request => Sys2Proof.Machine.execVesselClear request s
  | .vesselStart request => Sys2Proof.Machine.execVesselStart request s
  | .groupStart request => Sys2Proof.Machine.execGroupStart request s
  | .vesselHalt request => Sys2Proof.Machine.execVesselHalt request s
  | .continueStep request => Sys2Proof.Machine.execContinueStep request s
  | .authority request => Sys2Proof.Machine.execAuthority request s
  | .lock request => Sys2Proof.Machine.execLock request s
  | .release request => Sys2Proof.Machine.execRelease request s
  | .discard request => Sys2Proof.Machine.execDiscard request s
  | .castEnd request => Sys2Proof.Machine.execCastEnd request s
  | .castRead request => Sys2Proof.Machine.execCastRead request s
  | .castSettle request => Sys2Proof.Machine.execCastSettle request s
  | .periodClose request => Sys2Proof.Machine.execPeriodClose request s
  | .dutyRead request => Sys2Proof.Machine.execDutyRead request s
  | .journalRead request => Sys2Proof.Machine.execJournalRead request s
  | .journalRelease request => Sys2Proof.Machine.execJournalRelease request s
  | .journalRetry request => Sys2Proof.Machine.execJournalRetry request s
  | .characterReceived character => Sys2Proof.Machine.execCharacterReceived character s
  | .resetInputReleased pins => Sys2Proof.Machine.execResetInputReleased pins s
  | .unknownRequestCode source tag payload => Sys2Proof.Machine.execUnknownRequestCode source tag payload s

end Sys2Proof.Machine
end

