-- ==== Sys2Proof/Machine/Schedule.lean ====
section
/-! DEFINITION. What the part does by itself with no command waiting: its due steps one by one, and else one
millisecond of loop time (R21, log 2). -/

namespace Sys2Proof.Machine

/-- The request command a frame of the request queue is served by (R170). -/
def requestCommand (address : Byte) (q : Queued) : Instr :=
  let rq : Request := { source := q.source, tag := q.tag, params := q.payload.tail }
  match (q.payload.headD 0).toNat with
  | 1 => .statusRead rq
  | 2 => .clearConditions rq
  | 3 => .tableWindow rq
  | 4 => .tableWrite rq
  | 5 => .tableRead rq
  | 6 => .partConfig rq
  | 7 => if rq.params = [1] then .resetVessels rq else .resetFull rq address
  | 8 => .brewOpen rq
  | 9 => .brewAssign rq
  | 10 => .brewAbandon rq
  | 11 => .brewRelease rq
  | 12 => .brewRead rq
  | 13 => .vesselClear rq
  | 14 => .vesselStart rq
  | 15 => .groupStart rq
  | 16 => .vesselHalt rq
  | 17 => .continueStep rq
  | 18 => .authority rq
  | 19 => .lock rq
  | 20 => .release rq
  | 21 => .discard rq
  | 22 => .castEnd rq
  | 23 => .castRead rq
  | 24 => .castSettle rq
  | 25 => .periodClose rq
  | 26 => .dutyRead rq
  | 27 => .journalRead rq
  | 28 => .journalRelease rq
  | 29 => .journalRetry rq
  | _ => .unknownRequestCode q.source q.tag q.payload

/-- A command when its condition holds. -/
def dueIf (b : Bool) (i : Instr) : List Instr := if b then [i] else []

/-- The follow-on steps whose conditions hold (R64, R113, R125, R149, R161). The open attempt is made again when its
outcome would differ from the reason that stands, so also when a check newly fails by an event that the list of R113
does not name (DESIGN CHOICE, log 53). -/
def followOns (s : State) : List Instr :=
  vessels.flatMap (fun v => dueIf (canUnblock s v) (.transferUnblocked v))
    ++ dueIf (s.castMeter.keptClose.isSome && queueHasPlace s) .castCloseReoffer
    ++ dueIf (canRetryOpen s && (s.seqs.get .whirlpool).blocked != (openRefusal s).map .castRefused)
        .castOpenRetry
    ++ dueIf (canActivate s) .firstActivation
    ++ dueIf (canBeginWrite s) .journalWriteBegin

/-- The timers that have run out. -/
def timersDue (s : State) : List Instr :=
  dueIf (linkDue s) .linkTimerExpiry
    ++ (List.range 128).flatMap (fun r => dueIf (staleDue s r) (.staleExpiry r))
    ++ [0, 1, 2, 3].flatMap (fun i => dueIf (holdSlotDue s i) (.holdSlotExpiry i))
    ++ vessels.flatMap (fun v => dueIf (refreshDue s v) (.refreshTimerExpiry v))
    ++ vessels.flatMap (fun v => dueIf (holdDue s v) (.holdTimerExpiry v))
    ++ dueIf (confirmDue s) .confirmTimerExpiry
    ++ dueIf (strokeDue s) .strokeTimerExpiry
    ++ dueIf (settleDue s) .settleTimerExpiry
    ++ dueIf (reportDue s) .reportTimerExpiry

/-- The part's own due step: the follow-on steps first, then the timers, then the request at the head of the request
queue (log 2). -/
def ownStep (s : State) : Option Instr :=
  if s.mode = .active then
    (followOns s ++ timersDue s ++ (s.agent.requests.head?.map (requestCommand s.stationAddress)).toList).head?
  else none

/-- One millisecond of loop time passes once the station address has been read (R21). -/
def tick (s : State) : State := if s.mode = .inReset then s else { s with loopTime := s.loopTime + 1 }

/-- The block with no command waiting (log 2). -/
def idle (s : State) : Host.Outcome State Fault Refusal :=
  match ownStep s with
  | some i => exec i s
  | none => .next (tick s)

/-- The block with a command taken from the front of its queue. -/
def takeCommand (i : Instr) (rest : List Instr) (s : State) : Host.Outcome State Fault Refusal :=
  exec i { s with pending := rest }

end Sys2Proof.Machine
end

