-- ==== Sys2Proof/WellFormed.lean ====
section
/-! DEFINITION. When a command is well formed: its operands lie where its row of the table can have them. A
command that is not well formed still has its meaning; these checks say what the outside can send. -/

namespace Sys2Proof

/-- What can be wrong with a command's operands. -/
inductive Defect where
  /-- FRAME_COMPLETE with no byte: the last check byte arrives with it (R5). -/
  | noBytes
  /-- More bytes than a frame has from Kind through Check: 128 (1.3). -/
  | frameTooLong
  /-- A row past the 128 of the Point Table (2.1). -/
  | noSuchPoint
  /-- A slot past the four hold slots (3.4). -/
  | noSuchSlot
  /-- A hold timer of a vessel with a heat point: such a HOLD keeps a rest clock (R87, R88). -/
  | noHoldTimer
  /-- A TRANSFER out of the whirlpool, which has none (R63). -/
  | noTransfer
  /-- A block that is not 512 bytes (10.1). -/
  | notABlock
  /-- A source station that is none of the ring's, 1 to 254 (1.3). -/
  | badStation
  /-- Parameters that do not fit a payload of 120 bytes with the request code (1.3). -/
  | payloadTooLong
  /-- A RESET row whose parameters name the other level (R184). -/
  | otherLevel
  /-- UNKNOWN_REQUEST_CODE with one of the 29 codes (R172). -/
  | knownRequest
deriving DecidableEq, Repr

/-- The defect of a test that fails. -/
def require (ok : Bool) (d : Defect) : List Defect := if ok then [] else [d]

/-- Whether a station number is one of the ring's. -/
def isStation (b : Byte) : Bool := decide (1 ≤ b.toNat ∧ b.toNat ≤ 254)

/-- The defects of a request. -/
def requestDefects (r : Request) : List Defect :=
  require (isStation r.source) .badStation ++ require (decide (r.params.length ≤ 119)) .payloadTooLong

/-- The defects of what the store answers. -/
def answerDefects : StoreAnswer → List Defect
  | .asHeld => []
  | .bytes block => require (block.length == 512) .notABlock

/-- The parameters of RESET(VESSELS) (R172, R184). -/
def vesselsLevel : List Byte := [1]

/-- Whether a payload begins with one of the 29 request codes. -/
def namesRequest (payload : List Byte) : Bool := payload.head?.any fun c => decide (1 ≤ c.toNat ∧ c.toNat ≤ 29)

/-- The defects of a command. -/
def defects : Instr → List Defect
  | .fullReset _ _ => []
  | .frameComplete bytes => require (!bytes.isEmpty) .noBytes ++ require (decide (bytes.length ≤ 128)) .frameTooLong
  | .linkTimerExpiry => []
  | .downstreamFrameSent => []
  | .staleExpiry row => require (decide (row < 128)) .noSuchPoint
  | .holdSlotExpiry slot => require (decide (slot < 4)) .noSuchSlot
  | .refreshTimerExpiry _ => []
  | .holdTimerExpiry v => require (v == .lauter || v == .whirlpool) .noHoldTimer
  | .transferUnblocked v => require (v != .whirlpool) .noTransfer
  | .confirmTimerExpiry => []
  | .castOpenRetry => []
  | .strokeTimerExpiry => []
  | .settleTimerExpiry => []
  | .castCloseReoffer => []
  | .firstActivation => []
  | .powerFailWarning => []
  | .powerWarningWithdrawn => []
  | .journalProtectAsserted => []
  | .journalProtectWithdrawn => []
  | .journalWriteBegin => []
  | .journalEraseDone => []
  | .journalProgramDone => []
  | .journalReadbackDone a => answerDefects a
  | .journalReadBlockDone a => answerDefects a
  | .mountBlockReadDone a => answerDefects a
  | .reportTimerExpiry => []
  | .statusRead r => requestDefects r
  | .clearConditions r => requestDefects r
  | .tableWindow r => requestDefects r
  | .tableWrite r => requestDefects r
  | .tableRead r => requestDefects r
  | .partConfig r => requestDefects r
  | .resetFull r _ => requestDefects r ++ require (r.params != vesselsLevel) .otherLevel
  | .resetVessels r => requestDefects r ++ require (r.params == vesselsLevel) .otherLevel
  | .brewOpen r => requestDefects r
  | .brewAssign r => requestDefects r
  | .brewAbandon r => requestDefects r
  | .brewRelease r => requestDefects r
  | .brewRead r => requestDefects r
  | .vesselClear r => requestDefects r
  | .vesselStart r => requestDefects r
  | .groupStart r => requestDefects r
  | .vesselHalt r => requestDefects r
  | .continueStep r => requestDefects r
  | .authority r => requestDefects r
  | .lock r => requestDefects r
  | .release r => requestDefects r
  | .discard r => requestDefects r
  | .castEnd r => requestDefects r
  | .castRead r => requestDefects r
  | .castSettle r => requestDefects r
  | .periodClose r => requestDefects r
  | .dutyRead r => requestDefects r
  | .journalRead r => requestDefects r
  | .journalRelease r => requestDefects r
  | .journalRetry r => requestDefects r
  | .characterReceived _ => []
  | .resetInputReleased _ => []
  | .unknownRequestCode source _ payload =>
    require (isStation source) .badStation ++ require (decide (payload.length ≤ 120)) .payloadTooLong
      ++ require (!namesRequest payload) .knownRequest

/-- A command with no defect. -/
def WellFormed (i : Instr) : Prop := defects i = []

end Sys2Proof
end

