-- ==== Sys2Proof/Safety.lean ====
section
/-! DEFINITION. What a safe state and a safe step are, what a command leaves alone, and when a request command is
taken: the words the statements use. -/

namespace Sys2Proof.Machine

/-! ### Safe states -/

/-- Every buffer, queue and table of the part within the room the spec gives it, and no frame waiting at a free
downstream port. -/
structure Capacity (s : State) : Prop where
  /-- The open frame is short of the 128 bytes from Kind through Check (R5). -/
  reception : ∀ b, s.loop.rx = some b → b.length < 128
  /-- The frame-error count saturates at 255 (R6). -/
  errors : s.loop.frameErrors ≤ 255
  /-- The transit buffer has two places (R11). -/
  transit : s.loop.transit.length ≤ 2
  /-- The insertion queue holds up to 32 frames (R14). -/
  insertions : s.loop.queue.length ≤ 32
  /-- The Point Value Table has 128 entries (2.4). -/
  points : s.points.length = 128
  /-- There are four hold slots (3.4). -/
  slots : s.slots.length = 4
  /-- The Brew Table has six rows (4.1). -/
  brews : s.brews.length = 6
  /-- The send queue holds up to 64 entries (6.2). -/
  sends : s.boil.sendQueue.length ≤ 64
  /-- The write queue holds up to four records (R160). -/
  writes : s.journal.queue.length ≤ 4
  /-- The request queue holds up to eight requests (R170). -/
  requests : s.agent.requests.length ≤ 8
  /-- The event queue holds up to 64 events (R180). -/
  events : s.agent.events.length ≤ 64
  /-- A free downstream port has nothing to send (R17). -/
  arbiter : s.loop.port = .idle → s.loop.transit = [] ∧ s.loop.queue = []
  /-- EGRESS_CONGESTED goes when 16 frames or fewer are left (R16). -/
  congestion : s.loop.congested = true → 16 < s.loop.queue.length

/-- A safe state: within its room, its store in canonical form, no notice undelivered. -/
structure Safe (s : State) : Prop where
  capacity : Capacity s
  store    : storeWf s.store = true
  tells    : s.tells = []

/-- A step that neither faults nor is refused. -/
def Completes (o : Host.Outcome State Fault Refusal) : Prop := ∃ t, o = .next t

/-! ### What a command leaves alone

Each of these sets aside some parts of the state. Two states that agree after it differ in those parts alone. -/

/-- A sequencer with its refresh timer set aside. -/
def Sequencer.atRest (q : Sequencer) : Sequencer := { q with refreshTimer := none }

/-- The four sequencers with their refresh timers set aside. -/
def seqsAtRest (p : PerVessel Sequencer) : PerVessel Sequencer :=
  { mash := p.mash.atRest, lauter := p.lauter.atRest, kettle := p.kettle.atRest, whirlpool := p.whirlpool.atRest }

/-- Set aside: what the end of any command may touch, the insertion queue with its port and its congestion, the
condition sets, the refresh timers, and the notices (R14, R93, R177). -/
def State.rest (s : State) : State :=
  { s with
    loop := { s.loop with queue := [], port := .idle, congested := false }
    seqs := seqsAtRest s.seqs
    agent := { s.agent with conditions := [], acked := [], reported := [] }
    tells := [] }

/-- Set aside: what offering a frame or raising an event may touch. -/
def State.bare (s : State) : State :=
  { s with
    loop := { s.loop with queue := [], port := .idle, congested := false }
    agent :=
      { s.agent with conditions := [], acked := [], reported := [], latched := [], events := [], shedding := false }
    tells := [] }

/-- Set aside as well: the refresh timers, the brews, the Boil Unit, the cast, duty and the journal's records. -/
def State.works (s : State) : State :=
  { s.bare with
    seqs := seqsAtRest s.seqs
    brews := []
    boil := .cleared
    castMeter := { record := none, pumpUnsent := none, keptClose := none }
    duty := .cleared
    journal := .cleared }

/-- Set aside as well: the vessels, their hold slots and their sequencers. What is left is the part outside the
brewing blocks: pins, mode, address, loop time, reception, transit, tables, point values, the store, the Management
Agent's requests, window, timers and configuration, and the waiting commands. -/
def State.outer (s : State) : State :=
  { s.works with vessels := .all .cleared, slots := [], seqs := .all .cleared }

/-- A vessel's record with all set aside but its authority and its supervisor lock. -/
def VesselRec.ruled (r : VesselRec) : VesselRec :=
  { VesselRec.cleared with authority := r.authority, supervisorLock := r.supervisorLock }

/-- Set aside less than `State.outer`: each vessel's authority and supervisor lock stay. -/
def State.ruled (s : State) : State :=
  { s.outer with
    vessels :=
      { mash := s.vessels.mash.ruled, lauter := s.vessels.lauter.ruled, kettle := s.vessels.kettle.ruled
        whirlpool := s.vessels.whirlpool.ruled } }

/-! ### Commands taken -/

/-- A command finds the part ready for it: ACTIVE mode, no notice under way, and no frame waiting at a free downstream
port. Every step leaves the last two so. -/
structure Quiet (s : State) : Prop where
  active  : s.mode = .active
  tells   : s.tells = []
  arbiter : s.loop.port = .idle → s.loop.transit = [] ∧ s.loop.queue = []

/-- A request command finds its turn (log 4): nothing else is at the head of the request queue. -/
structure Takes (r : Queued) (s : State) : Prop extends Quiet s where
  head : ∀ q, s.agent.requests.head? = some q → q = r

/-- The state with the request at the head of the queue taken (R170). -/
def taken (s : State) : State := { s with agent := { s.agent with requests := s.agent.requests.tail } }

/-! ### Frames sent -/

/-- `t` shows a frame that is no DRIVE offered in `s` by the Management Agent: an idle port with nothing waiting
begins it at once, a queue with room takes it at the tail with its entry time, a full queue refuses it and
EGRESS_CONGESTED is set. Only reports may follow it (R14, R16, R17). -/
structure Sent (f : Frame) (s t : State) : Prop where
  begun : s.loop.port = .idle → t.loop.port = .sendingInsertion f.sealed
  joined : s.loop.port ≠ .idle → s.loop.queue.length < 32 →
    ∃ more, t.loop.queue = s.loop.queue ++ { frame := f.sealed, entry := s.loopTime, owner := .agent } :: more
  refused : 32 ≤ s.loop.queue.length → t.loop.queue = s.loop.queue ∧ t.loop.congested = true

/-- Command `i`, the request `rq` of a code, completes in `s` as if in `u` its REPLY were offered with a result and
data, and nothing but what `State.rest` sets aside followed (R170). -/
def Answers (i : Instr) (code : Nat) (rq : Request) (r : Result) (data : List Byte) (s u : State) : Prop :=
  ∃ t, exec i s = .next t ∧ t.rest = u.rest
    ∧ Sent (replyFrame u rq.source rq.tag (BitVec.ofNat 8 code) r data) u t

/-- The state `t` is one in which the REPLY of the request `rq` of a code, with a result and data, has just been
offered and the blocks have settled. What else the command did is said beside it. -/
def Replied (code : Nat) (rq : Request) (r : Result) (data : List Byte) (t : State) : Prop :=
  ∃ u : State, u.stationAddress = t.stationAddress
    ∧ t = settle (offer (replyFrame u rq.source rq.tag (BitVec.ofNat 8 code) r data) .agent u).2

/-- Command `i` completes in `s` and leaves, but for what `State.rest` sets aside, the state `u`. -/
def Leaves (i : Instr) (s u : State) : Prop := ∃ t, exec i s = .next t ∧ t.rest = u.rest

/-- The request `rq` carries the parameters `r`, each in its range, and finds its turn (R171, R172). -/
structure Asks (rq : Request) (r : Req) (s : State) : Prop extends Takes (queuedOf r.code rq) s where
  carries : parseReq s.stationAddress r.code rq.params = some r

/-! ### What becomes of a sequencer -/

/-- A cause of suspension holds for a vessel: HAND, STALE, LINK or POWER (R76). -/
def Suspending (s : State) (v : Vessel) : Prop :=
  (s.vessels.get v).authority = .hand
    ∨ (vesselValid s.tables v = true ∧ freshPoint s (vesselRow s.tables v).pv = false)
    ∨ s.loop.linkDown = true ∨ s.pins.powerFail = true

/-- The lists of some vessels are started from `s` to `t` (R49, R78, R80): a sequencer with a cause is SUSPENDED at
position 0, any other runs or is blocked at some position, the slots of these vessels are empty, and no other sequencer
and no other slot changes. -/
structure Started (l : List Vessel) (s t : State) : Prop where
  held   : ∀ v ∈ l, Suspending s v → (t.seqs.get v).state = .suspended ∧ (t.seqs.get v).position = some 0
  going  : ∀ v ∈ l, ¬Suspending s v →
    ((t.seqs.get v).state = .running ∨ (t.seqs.get v).state = .blocked) ∧ (t.seqs.get v).position.isSome = true
  others : ∀ v, v ∉ l →
    (t.seqs.get v).state = (s.seqs.get v).state ∧ (t.seqs.get v).position = (s.seqs.get v).position
  slots  : ∀ n < 4, slotHold t n = (slotHold s n).filter fun h => !l.contains h.vessel
  ruled  : t.ruled = s.ruled

/-- The step of a vessel's sequencer at a position of a recipe's list completes from `s` to `t` (R49, R79): the next
position begins, if there is one, and steps beyond it may begin with it; the slots that hold for the step are
emptied, and no other sequencer and no other vessel's slot changes. -/
structure StepsOn (v : Vessel) (recipe pos : Nat) (s t : State) : Prop where
  held   : pos + 1 < listCount s.tables recipe v → Suspending s v →
    (t.seqs.get v).state = .suspended ∧ (t.seqs.get v).position = some (pos + 1)
  going  : pos + 1 < listCount s.tables recipe v → ¬Suspending s v →
    ((t.seqs.get v).state = .running ∨ (t.seqs.get v).state = .blocked)
      ∧ ∃ p, (t.seqs.get v).position = some p ∧ pos < p
  last   : listCount s.tables recipe v ≤ pos + 1 →
    (t.seqs.get v).state = (s.seqs.get v).state ∧ (t.seqs.get v).position = some pos
  others : ∀ w, w ≠ v →
    (t.seqs.get w).state = (s.seqs.get w).state ∧ (t.seqs.get w).position = (s.seqs.get w).position
  freed  : ∀ n < 4, ∀ h, slotHold t n = some h → slotHold s n = some h ∧ ¬(h.vessel = v ∧ h.step = some pos)
  slots  : ∀ n < 4, ∀ h, slotHold s n = some h → h.vessel ≠ v → slotHold t n = some h
  ruled  : t.ruled = s.ruled

/-! ### What a frame or a character changes -/

/-- The link timer is restarted (R1, R12). -/
def State.heard (s : State) : State := { s with loop := { s.loop with linkTimer := some s.loopTime } }

/-- The open frame is replaced (R1). -/
def State.receiving (b : Option (List Byte)) (s : State) : State := { s with loop := { s.loop with rx := b } }

/-- A latched condition's cause has occurred (R177). -/
def State.latched (c : Cond) (s : State) : State :=
  { s with agent := { s.agent with latched := if c ∈ s.agent.latched then s.agent.latched else s.agent.latched ++ [c] } }

/-- A frame error has been counted (R6). -/
def State.erred (s : State) : State :=
  State.latched .frameErrors { s with loop := { s.loop with frameErrors := min 255 (s.loop.frameErrors + 1) } }

/-- The open frame, if there is one, has been truncated (R1). -/
def State.broken (s : State) : State := if s.loop.rx.isSome then (s.receiving none).erred else s

/-- A complete frame that is not a frame error (R6, R7). -/
structure Frame.Good (f : Frame) : Prop where
  length : f.payload.length ≤ 120
  sound  : frameSound f = true
  shape  : shapeOk f = true

/-- The part is between frames with its link up. -/
structure Listening (s : State) : Prop extends Quiet s where
  rx   : s.loop.rx = none
  link : s.loop.linkDown = false

/-! ### Samples -/

/-- The reading that an accepted sample of a point makes the previous one: none after a stale gap (R26). -/
def formerReading (s : State) (r : Nat) : Option Reading :=
  if (entryOf s r).quality = .stale then none else (entryOf s r).current

/-- The time an accepted sample accrues: the interval from the former reading, with the dt base present (R85). -/
def sampleTime (q : Sequencer) (former : Option Reading) (now : LoopTime) : Nat :=
  match former with
  | some p => if q.dtBase then (now - p.time).toNat else 0
  | none => 0

/-- A frame is a SAMPLE for the part with one item, and point row `r` accepts the item with the value `x` (R8, R18, R22,
R26). -/
structure Samples (f : Frame) (i : SampleItem) (r : Nat) (x : Int) (clamped : Bool) (s : State) : Prop
    extends Listening s where
  good    : f.Good
  kind    : f.kind = 0x01
  source  : f.source ≠ s.stationAddress
  hop     : f.hop.toNat < 64
  dest    : f.dest = s.stationAddress
  items   : sampleItems f.payload = some [i]
  point   : findPoint s.tables f.source.toNat i.channel = some r
  value   : itemValue (pointRow s.tables r) i = some (x, clamped)
  quality : i.quality = .good ∨ i.quality = .uncertain

/-- The link timer is restarted and point row `r` has its entry replaced by an accepted item (R12, R26). -/
def State.sampled (i : SampleItem) (r : Nat) (x : Int) (clamped : Bool) (s : State) : State :=
  { s.heard with
    points := s.points.set r
      { current := some ⟨x, s.loopTime⟩, quality := i.quality, clamped := clamped
        previous := formerReading s r, staleTimer := some s.loopTime } }

/-- Point row `r` has an entry, and its deliveries reach the vessels whose valid rows name it as temperature point, those
that name it as level point, and the Cast Meter or not (R30). -/
structure DeliversTo (s : State) (r : Nat) (pv level : List Vessel) (line : Bool) : Prop where
  entry : r < s.points.length
  pv    : (vessels.filter fun v => vesselValid s.tables v && (vesselRow s.tables v).pv == r) = pv
  level : (vessels.filter fun v => vesselValid s.tables v && (vesselRow s.tables v).level == r) = level
  line  : (lineValid s.tables && (r == (lineRow s.tables).flow || r == (lineRow s.tables).temperature
    || r == (lineRow s.tables).gravity)) = line

/-- A heated vessel is RUNNING a step in AUTO with no cause of suspension but a stale temperature, `r` is its temperature
point and nothing else, and the Boil Unit has no addition to offer (R30, R76, R103). -/
structure Heating (v : Vessel) (st : StepRow) (r : Nat) (s : State) : Prop where
  heated   : heated v = true
  delivers : DeliversTo s r [v] [] false
  running  : (s.seqs.get v).state = .running
  step     : currentStep s v = some st
  auto     : (s.vessels.get v).authority = .auto
  power    : s.pins.powerFail = false
  sends    : v = .kettle → s.boil.outstanding = true ∨ s.boil.sendQueue = []

/-- From `s` a computed demand `d` of a vessel is offered to its heat point, or not: it is when it is the first after a
forced zero, differs from the last by the deadband or the last offer was refused, and it is then the last demand (R93,
R94). The loop of `u` is that of the offer. -/
def DemandOffered (v : Vessel) (d hp : Nat) (p : PointRow) (s u : State) : Prop :=
  let q := s.seqs.get v
  let offers := q.zeroForced = true ∨ (vesselRow s.tables v).deadband ≤ max d q.lastDemand - min d q.lastDemand
    ∨ ∃ o ∈ q.unsent, o.row = hp
  let drive : Frame :=
    { kind := 0x02, dest := BitVec.ofNat 8 p.station, source := s.stationAddress, hop := 0, tag := 0
      payload := num 1 p.channel ++ num 1 0 ++ num 2 d, check := 0 }
  (u.seqs.get v).zeroForced = false
    ∧ (offers → (u.seqs.get v).lastDemand = d ∧ u.loop = (offer drive (.sequencer v) s.heard).2.loop)
    ∧ (¬offers → (u.seqs.get v).lastDemand = q.lastDemand ∧ u.loop = s.heard.loop)

/-- The TRANSFER of a vessel completes from `s` to `t`: the source is EMPTY and IDLE, the destination has the brew, and
an IDLE destination's list begins (R66). -/
structure HandedOver (v w : Vessel) (n : Nat) (s t : State) : Prop where
  ruled    : t.ruled = s.ruled
  source   : (t.vessels.get v).occupancy = .empty ∧ (t.vessels.get v).occupant = none ∧ (t.seqs.get v).state = .idle
  occupant : (t.vessels.get w).occupant = some n
  halted   : (s.seqs.get w).state = .halted →
    (t.seqs.get w).state = .halted ∧ (t.vessels.get w).occupancy = .resident
  held     : (s.seqs.get w).state = .idle → Suspending s w →
    (t.seqs.get w).state = .suspended ∧ (t.seqs.get w).position = some 0
  going    : (s.seqs.get w).state = .idle → ¬Suspending s w →
    (t.seqs.get w).state = .running ∨ (t.seqs.get w).state = .blocked

/-! ### Events -/

/-- The events of `t` are those of `s` and others behind them, of which none is AUTHORITY_CHANGED or START_REFUSED. -/
def EventsFollow (s t : State) : Prop :=
  ∃ more, t.agent.events = s.agent.events ++ more ∧ ∀ e ∈ more, e.kind ≠ .authorityChanged ∧ e.kind ≠ .startRefused

/-! ### Records of the mount -/

/-- The last, counted from a tail, of the records of a list that have a property (R158). -/
structure LastOf (tail : Seq) (p : Record → Prop) (l : List Record) (r : Record) : Prop where
  mem   : r ∈ l
  holds : p r
  last  : ∀ q ∈ l, p q → q ≠ r → (q.seq - tail).toNat < (r.seq - tail).toNat

/-- The latest RELEASE record of the good records, with its body (R167). -/
structure LatestRelease (good : List Record) (r : Record) (b : ReleaseBody) : Prop where
  mem    : r ∈ good
  body   : r.body = .release b
  latest : ∀ q ∈ good, q ≠ r → q.release? ≠ none → laterSeq r.seq q.seq = true

end Sys2Proof.Machine
end

