-- ==== Sys2Proof/Certificates/Slice0/Obligations.lean ====
section
/-! DEFINITION. The statements for the provers. -/

open Sys2Proof Sys2Proof.Machine

/-! ### The machine -/

/-- A step with a command waiting is the command at the front of the queue, run with the rest of the queue. -/
def Obligations.StepRunsTheFrontCommand : Prop :=
  ∀ (c : Instr) (rest : List Instr) (s : State), s.pending = c :: rest → step s = exec c { s with pending := rest }

/-- The model's choice (log 2): with no command waiting the part takes its own due step, else a millisecond of loop
time passes, and nothing at all while the part is held in reset. -/
def Obligations.StepWithNoCommandWaiting : Prop :=
  ∀ s : State, s.pending = [] →
    (∀ i, ownStep s = some i → step s = exec i s)
    ∧ (ownStep s = none → s.mode ≠ .inReset → step s = .next { s with loopTime := s.loopTime + 1 })
    ∧ (ownStep s = none → s.mode = .inReset → step s = .next s)

/-- The values the rules of chapters 1 to 11 give for a full reset, in the state after reset: R2, R3, R6, R11, R12,
R14, R18, R29, R34, R50, R52, R62, R75, R97, R111, R148, R167, R170, R174, R177, R180, R183. Its pins, with them the
station address, and its erased store are the model's (log 1). -/
def Obligations.ResetHasTheStatedValues : Prop :=
  let s := State.reset
  s.mode = .active ∧ s.relayOpen = true ∧ s.loopTime = 0
  ∧ s.loop.frameErrors = 0 ∧ s.loop.transit = [] ∧ s.loop.queue = [] ∧ s.loop.linkDown = false
  ∧ s.loop.linkTimer = some 0
  ∧ (∀ r < 128, pointValid s.tables r = false ∧ entryOf s r = PointEntry.empty)
  ∧ (∀ v, (s.vessels.get v).authority = .auto ∧ (s.vessels.get v).supervisorLock = false
      ∧ (s.vessels.get v).stepLock = false ∧ (s.vessels.get v).occupancy = .empty
      ∧ (s.vessels.get v).occupant = none ∧ (s.seqs.get v).state = .idle)
  ∧ s.slots = List.replicate 4 none ∧ s.brews = List.replicate 6 none
  ∧ s.boil.begun = false ∧ s.boil.clock = 0 ∧ s.boil.cursor = 0 ∧ s.boil.pending = none ∧ s.boil.sendQueue = []
  ∧ s.castMeter.record = none ∧ s.duty.tariff = .none ∧ s.journal.mount = .mounting
  ∧ s.agent.requests = [] ∧ s.agent.window = none ∧ s.agent.events = []
  ∧ s.agent.config = { supervisor := 0, fairness := 20, interval := 50 }
  ∧ s.agent.conditions = [.journalNotReady] ∧ alertAsserted s = true ∧ s.pending = []

/-- The state after reset is safe, and its conditions are those whose causes hold. -/
def Obligations.ResetIsSafe : Prop :=
  Safe State.reset ∧ ∀ k, k ∈ State.reset.agent.conditions ↔ condCause State.reset k = true

/-- Every step keeps every buffer within its room, the store in its canonical form, and no notice undelivered. -/
def Obligations.EveryStepKeepsTheStateSafe : Prop :=
  ∀ s t : State, Safe s → step s = .next t → Safe t

/-- Every step of a safe part keeps the condition set equal to the causes that hold (R177). -/
def Obligations.EveryStepKeepsConditionsToTheirCauses : Prop :=
  ∀ s t : State, Safe s → (s.mode = .active → ∀ k, k ∈ s.agent.conditions ↔ condCause s k = true) →
    step s = .next t → t.mode = .active → ∀ k, k ∈ t.agent.conditions ↔ condCause t k = true

/-- The model's deduction (log 35): every command completes in every state, and leaves the commands that wait behind
it. The spec names no state in which the part stops, and states no such rule. -/
def Obligations.EveryCommandCompletes : Prop :=
  ∀ (c : Instr) (s : State), ∃ t, exec c s = .next t ∧ t.pending = s.pending

/-- But for the resets, no command changes the mode, the station address, the relay or loop time; only the commands of
the input pins change a pin, and only the five store commands change the store. -/
def Obligations.CommandsKeepModeAddressTimeAndStore : Prop :=
  ∀ (c : Instr) (s t : State), WellFormed c → (∀ h p, c ≠ .fullReset h p) → (∀ p, c ≠ .resetInputReleased p) →
    (∀ r p, c ≠ .resetFull r p) → exec c s = .next t →
    t.mode = s.mode ∧ t.stationAddress = s.stationAddress ∧ t.relayOpen = s.relayOpen ∧ t.loopTime = s.loopTime
    ∧ t.pins.address = s.pins.address ∧ t.pins.reset = s.pins.reset
    ∧ (c ≠ .powerFailWarning → c ≠ .powerWarningWithdrawn → t.pins.powerFail = s.pins.powerFail)
    ∧ (c ≠ .journalProtectAsserted → c ≠ .journalProtectWithdrawn → t.pins.protect = s.pins.protect)
    ∧ (c ≠ .journalEraseDone → c ≠ .journalProgramDone → (∀ a, c ≠ .journalReadbackDone a) →
        (∀ a, c ≠ .journalReadBlockDone a) → (∀ a, c ≠ .mountBlockReadDone a) → t.store = s.store)

/-- In BYPASS mode a character is repeated (R4). The model's deduction from R4 (log 14): a pin's command sets the pin's
level alone, and every other command but the resets changes nothing. -/
def Obligations.BypassOnlyRepeats : Prop :=
  ∀ s : State, s.mode = .bypass →
    (∀ c, exec (.characterReceived c) s = .next { s with loop := { s.loop with repeated := some c } })
    ∧ exec .powerFailWarning s = .next { s with pins := { s.pins with powerFail := true } }
    ∧ exec .powerWarningWithdrawn s = .next { s with pins := { s.pins with powerFail := false } }
    ∧ exec .journalProtectAsserted s = .next { s with pins := { s.pins with protect := true } }
    ∧ exec .journalProtectWithdrawn s = .next { s with pins := { s.pins with protect := false } }
    ∧ (∀ p, exec (.resetInputReleased p) s = .next s)
    ∧ ∀ i, (∀ c, i ≠ .characterReceived c) → (∀ h p, i ≠ .fullReset h p) → i ≠ .powerFailWarning →
        i ≠ .powerWarningWithdrawn → i ≠ .journalProtectAsserted → i ≠ .journalProtectWithdrawn → exec i s = .next s

/-- A full reset, by power-on or by the reset input, from any state (R2, R3, R12, R21, R163, R167): every block at its
full-reset values. Held in reset the part has read no address; else it is ACTIVE with the mount begun, or in BYPASS
with the journal unmounted, by its address. The block of a write that the reset cuts short reads bad or erased (what
it holds is free, log 38), and every other block as before. The model's choices: the store and the other pins are kept
as they were, and the release of the reset input goes on as a power-on does, and does nothing to a part that is not
held (log 1); registers whose full-reset value no rule gives are at those of `State.cleared` (log 21). -/
def Obligations.FullResetFromAnyState : Prop :=
  ∀ (address : Byte) (s : State),
    let pins : Pins := { s.pins with address := address, reset := false }
    let store := cutStore s
    let cut := s.journal.op = .erasing ∨ s.journal.op = .programming ∨ s.journal.op = .verifying
    let block := blockOf (s.journal.head - 1)
    let fresh := State.cleared pins store s.pending
    let started := { fresh with
      stationAddress := address
      relayOpen := true
      loop := { LoopPort.cleared with linkTimer := some 0 }
      agent := { Agent.cleared with reportTimer := some 0 } }
    let causes : Causes := { hand := false, stale := false, link := false, power := s.pins.powerFail }
    (¬cut → store = s.store)
    ∧ (∀ n, n ≠ block → storeRead store n = storeRead s.store n)
    ∧ (cut → storeWf s.store = true → ∀ r, classifyBlock block (storeRead store block) ≠ .good r)
    ∧ exec (.fullReset true address) s
      = .next (State.cleared { s.pins with address := address, reset := true } store s.pending)
    ∧ (1 ≤ address.toNat ∧ address.toNat ≤ 254 → ∃ t, exec (.fullReset false address) s = .next t
        ∧ t.rest = ({ started with
            mode := .active
            seqs := .all { Sequencer.cleared with causes := causes }
            journal := { Journal.cleared with mount := .mounting } } : State).rest
        ∧ t.loop.queue = [] ∧ t.loop.port = .idle ∧ .journalNotReady ∈ t.agent.conditions)
    ∧ (address.toNat = 0 ∨ address.toNat = 255 →
        exec (.fullReset false address) s = .next { started with mode := .bypass })
    ∧ (∀ held, ∃ t, exec (.fullReset false address) s = .next t
        ∧ exec (.resetInputReleased address)
            (State.cleared { s.pins with address := held, reset := true } store s.pending) = .next t)
    ∧ (s.mode ≠ .inReset → exec (.resetInputReleased address) s = .next s)

/-! ### Encodings -/

/-- Every request whose parameters lie in their ranges is read back from its parameter bytes (R171, R172, with the
widths that R172 leaves to inference as log 15 takes them). -/
def Obligations.RequestParametersRoundTrip : Prop :=
  ∀ (own : Byte) (r : Req), r.ok own = true → parseReq own r.code r.params = some r

/-- A frame with a payload of up to 120 bytes is read back from its bytes, and its reception is complete with its last
byte and not before (R5). -/
def Obligations.FrameBytesRoundTrip : Prop :=
  ∀ f : Frame, f.payload.length ≤ 120 →
    Frame.ofBytes f.bytes = f ∧ received f.bytes = .whole f.bytes
    ∧ ∀ k, k < f.bytes.length → received (f.bytes.take k) = .more (f.bytes.take k)

/-- A record written at a position fills a block, which reads as a good record of that position with the record's
header (10.1, R157); a CAST_OPEN, a PERIOD_CLOSE and a TARIFF body come back whole when their figures fit their
fields. -/
def Obligations.JournalRecordsReadBack : Prop :=
  ∀ (q : Seq) (d : Draft), d.skip ≤ 255 → d.brew < 65536 → d.period < 65536 →
    (blockBytes q d).length = 512
    ∧ ∃ body, classifyBlock (blockOf q) (blockBytes q d)
          = .good { seq := q, skip := d.skip, brew := d.brew, period := d.period, body := body }
        ∧ bodyKind body = bodyKind d.body
        ∧ (∀ b, d.body = .castOpen b → b.cast < 2 ^ 32 → b.fermenter < 256 → b.strain < 256 → b.rate < 65536 →
            body = d.body)
        ∧ (∀ b, d.body = .periodClose b → b.period < 65536 → b.casts < 2 ^ 32 → b.dl < 2 ^ 64 → b.cdl < 2 ^ 64 →
            b.duty < 2 ^ 64 → b.ytd < 2 ^ 64 → b.castCount < 2 ^ 32 → body = d.body)
        ∧ (∀ i, d.body = .tariff i → i.bands.length = 8 → i.tiers.length = 4 → i.allowance < 2 ^ 24 →
            i.bandCount < 256 → i.tierCount < 256 → (∀ b ∈ i.bands, b.1 < 65536 ∧ b.2 < 2 ^ 24) →
            (∀ t ∈ i.tiers, t.1 < 2 ^ 32 ∧ t.2 < 2 ^ 24) → body = d.body)

/-! ### The loop -/

/-- A character of the upstream pair (R1, R5): a fault, IDLE or START truncates an open frame; all but a fault restart
the link timer; START opens a frame; a data character joins an open frame, or ends it as a frame error with a Length
above 120, and as the last character of a whole frame it is the end of that frame. -/
def Obligations.CharacterReception : Prop :=
  ∀ (c : Character) (s : State), Quiet s →
    let faulty := c.stop = false ∨ (c.control = true ∧ c.value ≠ 0x55 ∧ c.value ≠ 0xA3)
    (faulty → Leaves (.characterReceived c) s s.broken)
    ∧ (¬faulty → c.control = true → c.value = 0x55 → Leaves (.characterReceived c) s s.heard.broken)
    ∧ (¬faulty → c.control = true → c.value = 0xA3 →
        Leaves (.characterReceived c) s (s.heard.broken.receiving (some [])))
    ∧ (¬faulty → c.control = false → s.loop.rx = none → Leaves (.characterReceived c) s s.heard)
    ∧ (∀ b, ¬faulty → c.control = false → s.loop.rx = some b →
        let b' := b ++ [c.value]
        (b'.length < 6 → Leaves (.characterReceived c) s (s.heard.receiving (some b')))
        ∧ (∀ l, b'[5]? = some l →
            (120 < l.toNat → Leaves (.characterReceived c) s (s.heard.receiving none).erred)
            ∧ (l.toNat ≤ 120 → b'.length < 8 + l.toNat →
                Leaves (.characterReceived c) s (s.heard.receiving (some b')))
            ∧ (l.toNat ≤ 120 → b'.length = 8 + l.toNat →
                exec (.characterReceived c) s = exec (.frameComplete b') (s.receiving none))))

/-- A frame that goes on (R8, R10, R11, R44). A MANAGE, REPLY or REPORT of other stations, or a DRIVE that the guard
forwards, enters the transit buffer with its hop count raised and its check recomputed, a free downstream port begins
it, and a third frame in the buffer is a transit overrun; nothing else changes. A SAMPLE or a NOTICE for another
station is tapped first: the blocks come to the state `u` that the same frame addressed to the part brings them to,
and with `u` the frame enters the transit buffer or overruns it; then the blocks settle. -/
def Obligations.FramesForwarded : Prop :=
  (∀ (f : Frame) (s : State), Listening s → f.Good → f.source ≠ s.stationAddress → f.dest ≠ s.stationAddress →
    f.hop.toNat < 64 →
    (f.kind = 0x10 ∨ f.kind = 0x11 ∨ f.kind = 0x12 ∨ (f.kind = 0x02 ∧ guardDecision s f = .forward)) →
    let g := ({ f with hop := f.hop + 1 } : Frame).sealed
    (s.loop.transit.length < 2 → ∃ t, exec (.frameComplete f.bytes) s = .next t
        ∧ t.rest = ({ s.heard with loop := { s.heard.loop with transit := s.loop.transit ++ [g] } } : State).rest
        ∧ (s.loop.port = .idle → t.loop.port = .sendingTransit))
    ∧ (2 ≤ s.loop.transit.length → Leaves (.frameComplete f.bytes) s s.heard.erred))
  ∧ ∀ (f g : Frame) (s : State), Listening s → Capacity s → f.Good → g.Good → f.kind = 0x01 ∨ f.kind = 0x03 →
    f.source ≠ s.stationAddress → f.dest ≠ s.stationAddress → f.hop.toNat < 64 →
    g.kind = f.kind → g.source = f.source → g.payload = f.payload → g.hop.toNat < 64 → g.dest = s.stationAddress →
    let sent := ({ f with hop := f.hop + 1 } : Frame).sealed
    ∃ u, exec (.frameComplete g.bytes) s = .next (settle u) ∧ u.loop.transit = s.loop.transit
      ∧ (s.loop.transit.length < 2 →
          let v : State := { u with loop := { u.loop with
            transit := u.loop.transit ++ [sent]
            port := if u.loop.port = .idle then .sendingTransit else u.loop.port } }
          exec (.frameComplete f.bytes) s = .next (settle v)
            ∧ (settle v).loop.transit = s.loop.transit ++ [sent] ∧ (settle v).loop.port ≠ .idle)
      ∧ (2 ≤ s.loop.transit.length → exec (.frameComplete f.bytes) s = .next (settle u.erred))

/-- A frame that ends here (R6 to R9, R170): one that fails a check counts as a frame error; one of the part's own, a
stray, and a DRIVE, REPLY or REPORT for the part are discarded; a MANAGE for the part joins the request queue, or
with eight requests queued is answered QUEUE_FULL at once with its request code, and nothing else changes. That the
QUEUE_FULL reply of a paged request carries no page number and no page count (R173) is the model's deduction (log 15). -/
def Obligations.FramesThatEndHere : Prop :=
  ∀ (f : Frame) (s : State), Listening s → f.payload.length ≤ 120 →
    (¬(f.check = crc16 f.covered ∧ f.kind ∈ [0x01, 0x02, 0x03, 0x10, 0x11, 0x12]
        ∧ 1 ≤ f.dest.toNat ∧ f.dest.toNat ≤ 254 ∧ 1 ≤ f.source.toNat ∧ f.source.toNat ≤ 254 ∧ shapeOk f = true) →
      Leaves (.frameComplete f.bytes) s s.heard.erred)
    ∧ (f.Good →
      (f.source = s.stationAddress ∨ 64 ≤ f.hop.toNat → Leaves (.frameComplete f.bytes) s s.heard)
      ∧ (f.source ≠ s.stationAddress → f.hop.toNat < 64 → f.dest = s.stationAddress →
          (f.kind = 0x02 ∨ f.kind = 0x11 ∨ f.kind = 0x12 → Leaves (.frameComplete f.bytes) s s.heard)
          ∧ (f.kind = 0x10 → s.agent.requests.length < 8 →
              Leaves (.frameComplete f.bytes) s
                { s.heard with agent := { s.agent with
                    requests := s.agent.requests ++ [{ source := f.source, tag := f.tag, payload := f.payload }] } })
          ∧ (f.kind = 0x10 → 8 ≤ s.agent.requests.length → ∀ code, f.payload.head? = some code →
              ∃ t, exec (.frameComplete f.bytes) s = .next t ∧ t.rest = s.heard.rest
                ∧ Sent (replyFrame s f.source f.tag code .queueFull []) s.heard t)))

/-- The downstream arbiter when a frame has been sent (R11, R14, R17): a transit frame frees its place; then a full
transit buffer, or a transit frame with no insertion frame older than the fairness limit, is sent next, and the
insertion queue keeps its frames; else the oldest insertion frame begins and leaves the queue, and what follows is the
settling of the blocks alone; with nothing waiting, and no condition to report, the port sends IDLE. Only reports join
the tail, but where the frame was the Boil or the Pitch Unit's, which is told. With the port sending IDLE already
nothing changes. -/
def Obligations.DownstreamArbiterChooses : Prop :=
  (∀ s : State, s.mode = .active → s.tells = [] → s.loop.port = .idle → Leaves .downstreamFrameSent s s)
  ∧ ∀ s : State, s.mode = .active → s.tells = [] → s.loop.port ≠ .idle →
    let transit := if s.loop.port = .sendingTransit then s.loop.transit.tail else s.loop.transit
    let aged := fun q : Insertion => s.agent.config.fairness ≤ (s.loopTime - q.entry).toNat
    let keeps := fun (queue : List Insertion) (t : State) => ∃ more, t.loop.queue = queue ++ more
    ∃ t, exec .downstreamFrameSent s = .next t
      ∧ t.works = ({ s with loop := { s.loop with transit := transit } } : State).works
      ∧ (transit ≠ [] → (s.loop.queue = [] ∨ 2 ≤ transit.length) →
          t.loop.port = .sendingTransit ∧ keeps s.loop.queue t)
      ∧ (∀ q rest, s.loop.queue = q :: rest →
          (transit = [] ∨ (transit.length = 1 ∧ aged q) →
            t.loop.port = .sendingInsertion q.frame
            ∧ (∃ u, t = settle u ∧ u.agent = s.agent ∧ u.seqs = s.seqs ∧ u.boil = s.boil ∧ u.castMeter = s.castMeter
                ∧ u.loop = { s.loop with
                    transit := transit, queue := rest, port := .sendingInsertion q.frame
                    congested := s.loop.congested && decide (16 < rest.length) })
            ∧ (q.owner ≠ .boilUnit → (∀ k, q.owner ≠ .pitchUnit k) → keeps rest t))
          ∧ (transit.length = 1 → ¬aged q → t.loop.port = .sendingTransit ∧ keeps s.loop.queue t))
      ∧ (transit = [] → s.loop.queue = [] → (∀ k, k ∈ s.agent.conditions ↔ condCause s k = true) →
          t.loop.port = .idle ∧ t.loop.queue = [])

/-- An offer to the insertion queue while the downstream port is busy (R14 to R16): a DRIVE takes the place of the
queued DRIVE for its point; else a frame joins the tail of a queue with room; to a full queue a DRIVE displaces the
oldest REPORT EVENTS frame, with EVENT_OVERFLOW, or is refused with nothing changed, and any other frame is refused
with EGRESS_CONGESTED. -/
def Obligations.InsertionQueueOffers : Prop :=
  ∀ (f : Frame) (o : Owner) (s : State), s.loop.port ≠ .idle →
    let isFor := fun q : Insertion => f.kind = 0x02 ∧ q.frame.kind = 0x02 ∧ q.frame.dest = f.dest
      ∧ q.frame.payload.head? = f.payload.head?
    let isEvents := fun q : Insertion => q.frame.kind = 0x12 ∧ q.frame.payload.head? = some 2
    let new : Insertion := { frame := f.sealed, entry := s.loopTime, owner := o }
    let r := offer f o s
    (∀ a q b, s.loop.queue = a ++ q :: b → isFor q → (∀ x ∈ a, ¬isFor x) →
      r.1.taken = true ∧ r.2.loop.queue = a ++ { new with entry := q.entry } :: b ∧ r.2.rest = s.rest)
    ∧ ((∀ x ∈ s.loop.queue, ¬isFor x) →
      (s.loop.queue.length < 32 →
        r.1.taken = true ∧ r.2.loop.queue = s.loop.queue ++ [new] ∧ r.2.rest = s.rest)
      ∧ (32 ≤ s.loop.queue.length → f.kind = 0x02 →
        (∀ a q b, s.loop.queue = a ++ q :: b → isEvents q → (∀ x ∈ a, ¬isEvents x) → s.loop.queue.length = 32 →
          r.1.taken = true ∧ r.2.loop.queue = a ++ b ++ [new] ∧ r.2.rest = (s.latched .eventOverflow).rest)
        ∧ ((∀ x ∈ s.loop.queue, ¬isEvents x) → r = (.refused, s)))
      ∧ (32 ≤ s.loop.queue.length → f.kind ≠ 0x02 →
        r = (.refused, { s with loop := { s.loop with congested := true } })))

/-- The link timer at 250 ms, the good frame that ends LINK_DOWN, and the power-fail warning with its withdrawal (R12,
R76, R77, R124, R184): the LINK or POWER cause joins or leaves every sequencer, one that is RUNNING or BLOCKED
suspends, and a cast that has begun to meter is charged as INTERRUPTED. A frame that is no frame error, here one that
is then discarded, clears LINK_DOWN and withdraws LINK: a SUSPENDED sequencer with another cause stays as it is, and
one with none goes on, RUNNING or BLOCKED. -/
def Obligations.LinkAndPowerSuspend : Prop :=
  ∀ s : State, s.mode = .active →
    let after := fun x : SeqState => if x = .running ∨ x = .blocked then SeqState.suspended else x
    (∀ start, s.loop.linkTimer = some start → 250 ≤ (s.loopTime - start).toNat →
      ∃ t, exec .linkTimerExpiry s = .next t
        ∧ t.outer = ({ s with loop := { s.loop with linkDown := true, linkTimer := none } } : State).outer
        ∧ ∀ v, (t.seqs.get v).causes.link = true ∧ (t.seqs.get v).state = after (s.seqs.get v).state
            ∧ (t.seqs.get v).position = (s.seqs.get v).position)
    ∧ (s.pins.powerFail = false → ∃ t, exec .powerFailWarning s = .next t
        ∧ t.outer = ({ s with pins := { s.pins with powerFail := true } } : State).outer
        ∧ (∀ v, (t.seqs.get v).causes.power = true ∧ (t.seqs.get v).state = after (s.seqs.get v).state
            ∧ (t.seqs.get v).position = (s.seqs.get v).position)
        ∧ (∀ c, s.castMeter.record = some c → c.state = .metering ∨ c.state = .paused ∨ c.state = .settling →
            ∃ d, t.castMeter.record = some d ∧ d.number = c.number ∧ d.state = .charging
              ∧ d.flags.interrupted = true ∧ (c.endCause = none → d.endCause = some .power)))
    ∧ (∃ t, exec .powerWarningWithdrawn s = .next t
        ∧ t.outer = ({ s with pins := { s.pins with powerFail := false } } : State).outer
        ∧ ∀ v, (t.seqs.get v).causes.power = false)
    ∧ (∀ f : Frame, s.tells = [] → (s.loop.port = .idle → s.loop.transit = [] ∧ s.loop.queue = []) →
        s.loop.rx = none → s.loop.linkDown = true → f.Good → f.source = s.stationAddress ∨ 64 ≤ f.hop.toNat →
      let up : State := { s with loop := { s.loop with linkDown := false } }
      ∃ t, exec (.frameComplete f.bytes) s = .next t ∧ t.outer = up.heard.outer
        ∧ .linkDown ∉ t.agent.conditions
        ∧ ∀ v, (t.seqs.get v).causes.link = false
          ∧ ((s.seqs.get v).state = .suspended → Suspending up v →
              (t.seqs.get v).state = .suspended ∧ (t.seqs.get v).position = (s.seqs.get v).position)
          ∧ ((s.seqs.get v).state = .suspended → ¬Suspending up v → currentStep s v ≠ none →
              (t.seqs.get v).state = .running ∨ (t.seqs.get v).state = .blocked)
          ∧ ((s.seqs.get v).state = .idle ∨ (s.seqs.get v).state = .armed ∨ (s.seqs.get v).state = .halted →
              (t.seqs.get v).state = (s.seqs.get v).state))

/-! ### Points and samples -/

/-- The value of a sample item (R22, R24, R25): a count on a flow-count point as it is; a SHORT or LONG item on a
scaled point as the offset plus raw times gain over 65,536, rounded toward negative infinity and clamped to the range
of the kind; every other pair of item and point is ignored. -/
def Obligations.SampleItemsScale : Prop :=
  ∀ (p : PointRow) (i : SampleItem),
    (p.kind = .flowCount → i.format = .count → itemValue p i = some (i.raw, false))
    ∧ (∀ lo hi, (p.kind = .temperature ∧ lo = -5000 ∧ hi = 15000) ∨ (p.kind = .gravity ∧ lo = 0 ∧ hi = 40000)
          ∨ (p.kind = .level ∧ lo = 0 ∧ hi = 500000) → i.format ≠ .count →
        ∃ x : Int, 65536 * x ≤ 65536 * p.offset + i.raw * p.gain ∧ 65536 * p.offset + i.raw * p.gain < 65536 * (x + 1)
          ∧ (x < lo → itemValue p i = some (lo, true)) ∧ (lo ≤ x → x ≤ hi → itemValue p i = some (x, false))
          ∧ (hi < x → itemValue p i = some (hi, true)))
    ∧ (p.kind = .flowCount → i.format ≠ .count → itemValue p i = none)
    ∧ (p.kind = .temperature ∨ p.kind = .gravity ∨ p.kind = .level → i.format = .count → itemValue p i = none)
    ∧ (p.kind.isDrive = true ∨ p.kind = .panel → itemValue p i = none)

/-- A SAMPLE for the part. Its items are taken in order, the second for a point finding the first's value (R22, R23,
R26, R27): an item of no point, or one its point ignores, changes no entry; a BAD item turns an entry that is not
STALE BAD; an accepted one replaces value, time, quality and clamp, keeps the former value unless the entry was STALE,
and restarts the stale timer; and nothing else outside the brewing blocks changes. Of one item alone, one that is not
accepted changes nothing else at all. A level sample (R30, R91, R122): above the empty level, or with no transfer and
no cast to end, only its entry changes; at or below it the TRANSFER in effect completes and hands the brew over, and
the whirlpool's ends a METERING or PAUSED cast by LEVEL. -/
def Obligations.SamplesUpdateTheirPoints : Prop :=
  (∀ (f : Frame) (items : List SampleItem) (s : State), Listening s → f.Good → f.kind = 0x01 →
    f.source ≠ s.stationAddress → f.hop.toNat < 64 → f.dest = s.stationAddress → sampleItems f.payload = some items →
    let entries := fun (points : List PointEntry) (i : SampleItem) =>
      match findPoint s.tables f.source.toNat i.channel with
      | none => points
      | some r =>
        match itemValue (pointRow s.tables r) i with
        | none => points
        | some (x, clamped) =>
          let e := points.getD r .empty
          if i.quality = .good ∨ i.quality = .uncertain then
            points.set r
              { current := some ⟨x, s.loopTime⟩, quality := i.quality, clamped := clamped
                previous := if e.quality = .stale then none else e.current, staleTimer := some s.loopTime }
          else points.set r (if e.quality = .stale then e else { e with quality := .bad })
    ∃ t, exec (.frameComplete f.bytes) s = .next t
      ∧ t.outer = ({ s.heard with points := items.foldl entries s.points } : State).outer)
  ∧ (∀ (f : Frame) (i : SampleItem) (s : State), Listening s → f.Good → f.kind = 0x01 → f.source ≠ s.stationAddress →
    f.hop.toNat < 64 → f.dest = s.stationAddress → sampleItems f.payload = some [i] →
    let c := Instr.frameComplete f.bytes
    (findPoint s.tables f.source.toNat i.channel = none → Leaves c s s.heard)
    ∧ ∀ r, findPoint s.tables f.source.toNat i.channel = some r →
      let e := entryOf s r
      (itemValue (pointRow s.tables r) i = none → Leaves c s s.heard)
      ∧ ∀ x clamped, itemValue (pointRow s.tables r) i = some (x, clamped) →
        (i.quality = .bad → e.quality = .stale → Leaves c s s.heard)
        ∧ (i.quality = .bad → e.quality ≠ .stale →
            Leaves c s { s.heard with points := (s.points.set r { e with quality := .bad }) })
        ∧ (i.quality = .good ∨ i.quality = .uncertain → ∃ t, exec c s = .next t
            ∧ t.outer = ({ s.heard with points := (s.points.set r
                { current := some ⟨x, s.loopTime⟩, quality := i.quality, clamped := clamped
                  previous := if e.quality = .stale then none else e.current
                  staleTimer := some s.loopTime }) } : State).outer))
  ∧ ∀ (f : Frame) (i : SampleItem) (r : Nat) (x : Int) (clamped : Bool) (v : Vessel) (s : State),
    Samples f i r x clamped s → DeliversTo s r [] [v] false →
    let c := Instr.frameComplete f.bytes
    let a := s.sampled i r x clamped
    let q := s.seqs.get v
    let empty := ((vesselRow s.tables v).emptyLevel : Int)
    let transferring := fun st : StepRow =>
      currentStep s v = some st ∧ st.kind = .transfer ∧ q.phase = .inEffect ∧ q.state = .running
    let casting := fun k : Cast =>
      v = .whirlpool ∧ s.castMeter.record = some k ∧ (k.state = .metering ∨ k.state = .paused)
    (empty < x ∨ ((∀ st, ¬transferring st) ∧ ∀ k, ¬casting k) → Leaves c s a)
    ∧ (x ≤ empty → ∀ st n w, transferring st → (s.vessels.get v).occupant = some n → destinationOf v = some w →
        (s.seqs.get w).state = .idle ∨ (s.seqs.get w).state = .halted →
        ∃ t, exec c s = .next t ∧ HandedOver v w n a t)
    ∧ (x ≤ empty → ∀ k, casting k → ∃ t d, exec c s = .next t ∧ t.castMeter.record = some d ∧ d.number = k.number
        ∧ d.state = .settling ∧ d.settleTimer = some s.loopTime ∧ d.v20 = k.v20
        ∧ d.endCause = some (k.endCause.getD .level) ∧ (k.endCause = none → d.flags.levelEnd = true))

/-- The expiry of a point's stale timer (R28, R30, R76): at the stale limit the entry turns STALE and its timer stops,
with value, time, previous fields and clamp kept, and the STALE cause joins every sequencer whose vessel names the
point as its temperature; one that is RUNNING or BLOCKED suspends. Before the limit nothing happens (log 3). -/
def Obligations.StaleTimerExpires : Prop :=
  ∀ (r : Nat) (start : LoopTime) (s : State), s.mode = .active → pointValid s.tables r = true →
    (entryOf s r).staleTimer = some start →
    let passed := (s.loopTime - start).toNat
    (natCell s.tables.point r 6 ≤ passed → ∃ t, exec (.staleExpiry r) s = .next t
      ∧ t.ruled = ({ s with points := (s.points.set r
          { entryOf s r with quality := .stale, staleTimer := none }) } : State).ruled
      ∧ ∀ v, r < s.points.length → vesselValid s.tables v = true → (vesselRow s.tables v).pv = r →
          (t.seqs.get v).causes.stale = true
          ∧ ((s.seqs.get v).state = .running ∨ (s.seqs.get v).state = .blocked → (t.seqs.get v).state = .suspended)
          ∧ (t.seqs.get v).position = (s.seqs.get v).position)
    ∧ (passed < natCell s.tables.point r 6 → exec (.staleExpiry r) s = .next s)

/-! ### The guard and authority -/

/-- The guard on a passing DRIVE (R43 to R45): an OWN origin is forged and dropped, whatever the point; on an owned
drive point of a vessel in AUTO a PANEL origin is refused and a SUPERVISOR origin held in the lowest free slot, or
dropped with none free; every other drive is forwarded. -/
def Obligations.GuardDecidesDrives : Prop :=
  ∀ (f : Frame) (s : State), Listening s → f.Good → f.kind = 0x02 → f.source ≠ s.stationAddress →
    f.dest ≠ s.stationAddress → f.hop.toNat < 64 →
    let c := Instr.frameComplete f.bytes
    let h := s.heard
    let origin := f.payload.getD 1 0
    let vessel : Option Vessel := (driveRow s f).bind fun r =>
      match (pointRow s.tables r).binding with
      | .vessel v => some v
      | .line => some .whirlpool
      | .unbound => none
    let guarded := (driveRow s f).any fun r => (pointRow s.tables r).kind.isDrive && (pointRow s.tables r).owned
    let source := EventArg.num f.source.toNat
    (origin = 0 → vessel = none → Leaves c s (raise .forgedOrigin .none none source h))
    ∧ (∀ v, vessel = some v → origin = 0 →
        Leaves c s (raise .forgedOrigin (.vessel v) (s.vessels.get v).occupant source h))
    ∧ (origin ≠ 0 → guarded = false ∨ vessel = none → guardDecision s f = .forward)
    ∧ (∀ v r, vessel = some v → driveRow s f = some r → origin ≠ 0 → guarded = true →
        let brew := (s.vessels.get v).occupant
        ((s.vessels.get v).authority = .hand → guardDecision s f = .forward)
        ∧ ((s.vessels.get v).authority = .auto → origin = 2 →
            Leaves c s (raise .panelRefused (.vessel v) brew (.num r) h))
        ∧ ((s.vessels.get v).authority = .auto → origin = 1 →
            (∀ n < 4, slotHold s n = none → (∀ m < n, slotHold s m ≠ none) →
              Leaves c s (raise .driveHeld (.vessel v) brew (.num n) { h with slots := s.slots.set n (some
                { frame := f, point := r, vessel := v, step := (s.seqs.get v).position, time := s.loopTime }) }))
            ∧ ((∀ n < 4, slotHold s n ≠ none) → Leaves c s (raise .guardFull (.vessel v) brew (.num r) h))))

/-- The ways a hold slot is emptied by itself or by request (R46 to R48): RELEASE sends the frame with its hop count
raised, or answers BUSY and keeps it (here with no frame of the Boil or the Pitch Unit waiting, which the frame could
replace); DISCARD frees the slot, with no event; both answer NOT_HELD on a free slot; 30 s after its hold time the
frame is lost with HELD_EXPIRED. That an expiry sent before that, or for a free slot, does nothing is the model's
deduction (log 3). -/
def Obligations.HoldSlotsEmpty : Prop :=
  (∀ (n : Nat) (h : Hold) (s : State), s.mode = .active → s.tells = [] → slotHold s n = some h →
    let passed := (s.loopTime - h.time).toNat
    (30000 ≤ passed → Leaves (.holdSlotExpiry n) s
      (raise .heldExpired (.vessel h.vessel) (s.vessels.get h.vessel).occupant (.num n)
        { s with slots := s.slots.set n none }))
    ∧ (passed < 30000 → exec (.holdSlotExpiry n) s = .next s))
  ∧ (∀ (n : Nat) (s : State), slotHold s n = none → exec (.holdSlotExpiry n) s = .next s)
  ∧ (∀ (n : Nat) (rq : Request) (s : State), Asks rq (.release n) s →
    (slotHold s n = none → Answers (.release rq) 20 rq .notHeld [] s (taken s))
    ∧ ∀ h, slotHold s n = some h →
        (∀ q ∈ s.loop.queue, q.owner ≠ .boilUnit ∧ ∀ k, q.owner ≠ .pitchUnit k) →
      let sent := offer { h.frame with hop := h.frame.hop + 1 } .guardUnit (taken s)
      (sent.1.taken = true →
        Answers (.release rq) 20 rq .ok [] s { sent.2 with slots := s.slots.set n none })
      ∧ (sent.1.taken = false → Answers (.release rq) 20 rq .busy [] s sent.2))
  ∧ (∀ (n : Nat) (rq : Request) (s : State), Asks rq (.discard n) s →
    (slotHold s n = none → Answers (.discard rq) 21 rq .notHeld [] s (taken s))
    ∧ (slotHold s n ≠ none →
        Answers (.discard rq) 21 rq .ok [] s { taken s with slots := s.slots.set n none }))

/-- The AUTHORITY request (R35, R40, R49, R76): HAND for a locked vessel in AUTO is answered LOCKED, the authority a
vessel already has changes nothing, and else the authority alone changes of all authority and supervisor locks, the
HAND cause follows it, and at HAND the vessel's hold slots are emptied and its sequencer suspends if it is RUNNING or
BLOCKED. A change raises AUTHORITY_CHANGED once, naming the vessel, its occupant and SUPERVISOR_HAND or
SUPERVISOR_AUTO, before any other event. The REPLY carries the authority record as it then stands. -/
def Obligations.AuthorityRequests : Prop :=
  ∀ (v : Vessel) (a : Authority) (rq : Request) (s : State), Asks rq (.authority v a) s →
    let r := s.vessels.get v
    let c := Instr.authority rq
    let locked := r.supervisorLock = true ∨ r.stepLock = true
    (a = .hand → r.authority = .auto → locked → Answers c 18 rq .locked (authorityBytes r) s (taken s))
    ∧ (r.authority = a → Answers c 18 rq .ok (authorityBytes r) s (taken s))
    ∧ (r.authority ≠ a → (a = .hand → ¬locked) → ∃ t, exec c s = .next t
        ∧ Replied 18 rq .ok (authorityBytes (t.vessels.get v)) t
        ∧ t.ruled = ({ taken s with vessels := s.vessels.set v { r with authority := a } } : State).ruled
        ∧ EventsFollow (raise .authorityChanged (.vessel v) r.occupant (.num (if a = .hand then 3 else 4)) s) t
        ∧ (t.seqs.get v).causes.hand = (a == .hand)
        ∧ (a = .hand →
            (∀ n < 4, slotHold t n = (slotHold s n).filter fun h => h.vessel != v)
            ∧ ((s.seqs.get v).state = .running ∨ (s.seqs.get v).state = .blocked →
                (t.seqs.get v).state = .suspended)
            ∧ ∀ w, w ≠ v → (t.seqs.get w).state = (s.seqs.get w).state))

/-- The LOCK request (R41): the supervisor lock of every vessel of the mask takes the setting and nothing else changes;
the REPLY carries all four authority records as they then stand. -/
def Obligations.LockRequests : Prop :=
  ∀ (mask : List Vessel) (on : Bool) (rq : Request) (s : State), Asks rq (.lock mask on) s →
    let put := fun v => { s.vessels.get v with
      supervisorLock := if v ∈ mask then on else (s.vessels.get v).supervisorLock }
    let u : State := { taken s with
      vessels := { mash := put .mash, lauter := put .lauter, kettle := put .kettle, whirlpool := put .whirlpool } }
    Answers (.lock rq) 19 rq .ok
      (authorityBytes (put .mash) ++ authorityBytes (put .lauter) ++ authorityBytes (put .kettle)
        ++ authorityBytes (put .whirlpool)) s u

/-- The notices for the part (R38, R39, R42, R83, R133). A vessel's panel: HAND_REQUEST changes an unlocked vessel in
AUTO to HAND, is refused with PANEL_REFUSED by a locked one, and changes nothing in HAND; AUTO_REQUEST changes to AUTO
whatever the locks; ESTOP changes to HAND whatever the locks and halts the sequencer; no other authority and no
supervisor lock changes. A change raises AUTHORITY_CHANGED once, naming the vessel, its occupant and PANEL_HAND,
PANEL_AUTO or PANEL_ESTOP, before any other event, and an ESTOP in HAND raises none (R35, R42). CONTINUE ends a WAIT
or a TRANSFER in effect, at a BOIL step confirms a pending addition, and anywhere else does nothing. The dosing
station's STROKE_DONE confirms the outstanding stroke, after which at most one new stroke is issued; with none
outstanding it is late, or out of sequence; and with no pitch part at work it is NOT_DOSING and nothing changes. -/
def Obligations.PanelNoticesAct : Prop :=
  (∀ (f : Frame) (v : Vessel) (row : Nat) (s : State), Listening s → f.Good → f.kind = 0x03 →
     f.source ≠ s.stationAddress → f.hop.toNat < 64 → f.dest = s.stationAddress →
     findPoint s.tables f.source.toNat (f.payload.getD 0 0).toNat = some row →
     (pointRow s.tables row).kind = .panel → (pointRow s.tables row).binding = .vessel v →
     let c := Instr.frameComplete f.bytes
     let code := f.payload.getD 1 0
     let r := s.vessels.get v
     let locked := r.supervisorLock = true ∨ r.stepLock = true
     let becomes := fun (a : Authority) (cause : Nat) => ∃ t, exec c s = .next t
       ∧ t.ruled = ({ s.heard with vessels := s.vessels.set v { r with authority := a } } : State).ruled
       ∧ EventsFollow (raise .authorityChanged (.vessel v) r.occupant (.num cause) s) t
     (code = 1 →
       (r.authority = .hand → Leaves c s s.heard)
       ∧ (r.authority = .auto → locked →
           Leaves c s (raise .panelRefused (.vessel v) r.occupant (.num row) s.heard))
       ∧ (r.authority = .auto → ¬locked → becomes .hand 0))
     ∧ (code = 2 → (r.authority = .auto → Leaves c s s.heard) ∧ (r.authority = .hand → becomes .auto 1))
     ∧ (code = 3 → (r.authority = .auto → becomes .hand 2) ∧ ∃ t, exec c s = .next t
         ∧ t.ruled = ({ s.heard with vessels := s.vessels.set v { r with authority := .hand } } : State).ruled
         ∧ (r.authority = .hand → EventsFollow s t) ∧
         let q := (s.seqs.get v).state
         ((t.seqs.get v).state = if q = .idle ∧ r.occupancy ≠ .filling then .idle else .halted)
         ∧ (q = .running ∨ q = .suspended ∨ q = .blocked →
             (t.seqs.get v).position = none ∧ (t.vessels.get v).stepLock = false)
         ∧ ∀ w, w ≠ v → (t.seqs.get w).state = (s.seqs.get w).state)
     ∧ (code = 4 →
         let q := s.seqs.get v
         ((∀ st, currentStep s v = some st →
             st.kind ≠ .boil ∧ (st.kind = .wait ∨ st.kind = .transfer → q.phase ≠ .inEffect)) → Leaves c s s.heard)
         ∧ ∀ st, currentStep s v = some st →
           (st.kind = .boil → s.boil.pending = none → Leaves c s s.heard)
           ∧ (∀ i n b, st.kind = .boil → s.boil.pending = some i → s.vessels.kettle.occupant = some n →
               brew? s n = some b → ∃ t, exec c s = .next t ∧ t.ruled = s.heard.ruled
                 ∧ t.boil.pending = none ∧ t.boil.confirmTimer = none ∧ t.boil.cursor = i + 1
                 ∧ ∀ w, (t.seqs.get w).state = (s.seqs.get w).state)
           ∧ (∀ pos recipe, st.kind = .wait → q.phase = .inEffect → q.position = some pos → q.list = some recipe →
               ∃ t, exec c s = .next t ∧ StepsOn v recipe pos s.heard t)
           ∧ (∀ n w, st.kind = .transfer → q.phase = .inEffect → r.occupant = some n → destinationOf v = some w →
               (s.seqs.get w).state = .idle ∨ (s.seqs.get w).state = .halted →
               ∃ t, exec c s = .next t ∧ t.ruled = s.heard.ruled
                 ∧ (t.vessels.get v).occupancy = .empty ∧ (t.vessels.get v).occupant = none
                 ∧ (t.seqs.get v).state = .idle ∧ (t.vessels.get w).occupant = some n
                 ∧ ((s.seqs.get w).state = .halted →
                     (t.seqs.get w).state = .halted ∧ (t.vessels.get w).occupancy = .resident)
                 ∧ ((s.seqs.get w).state = .idle → Suspending s w →
                     (t.seqs.get w).state = .suspended ∧ (t.seqs.get w).position = some 0)
                 ∧ ((s.seqs.get w).state = .idle → ¬Suspending s w →
                     (t.seqs.get w).state = .running ∨ (t.seqs.get w).state = .blocked))))
  ∧ ∀ (f : Frame) (row : Nat) (s : State), Listening s → f.Good → f.kind = 0x03 → f.source ≠ s.stationAddress →
    f.hop.toNat < 64 → f.dest = s.stationAddress → f.payload.getD 1 0 = 5 →
    findPoint s.tables f.source.toNat (f.payload.getD 0 0).toNat = some row →
    (pointRow s.tables row).kind = .doseDrive → lineValid s.tables = true → (lineRow s.tables).dose = row →
    let c := Instr.frameComplete f.bytes
    let h := s.heard
    (s.castMeter.record = none → Leaves c s (raise .doseSequence .none none (.num 1) h))
    ∧ ∀ k, s.castMeter.record = some k →
      let subject := Subject.cast k.number
      let working := k.state = .opening ∨ k.state = .metering ∨ k.state = .paused ∨ k.state = .settling
      let becomes := fun (p : PitchPart) => { h with castMeter := { s.castMeter with
        record := some { k with pitch := some p } } }
      ((k.pitch = none ∧ k.settleOver = false) ∨ k.state = .charging ∨ k.state = .closed →
        Leaves c s (raise .doseSequence subject (some k.brew) (.num 1) h))
      ∧ ∀ p, working → k.pitch = some p → p.confirmed + 1 < 2 ^ 64 → p.issued + 1 < 2 ^ 64 →
        (p.outstanding = false → k.settleOver = false → 0 < p.unconfirmed →
          Leaves c s (raise .doseLate subject (some k.brew) (.num (p.unconfirmed - 1))
            (becomes { p with
              unconfirmed := p.unconfirmed - 1, confirmed := p.confirmed + 1, late := min 65535 (p.late + 1) })))
        ∧ (p.outstanding = false → k.settleOver = false → p.unconfirmed = 0 →
          Leaves c s (raise .doseSequence subject (some k.brew) (.num 0)
            (becomes { p with sequence := min 65535 (p.sequence + 1) })))
        ∧ (p.outstanding = true → ∃ t d r, exec c s = .next t ∧ t.works = h.works
          ∧ t.castMeter.record = some d ∧ d.number = k.number ∧ d.pitch = some r
          ∧ r.confirmed = p.confirmed + 1 ∧ r.unconfirmed = p.unconfirmed ∧ r.consecutive = 0 ∧ r.target = p.target
          ∧ ((r.issued = p.issued ∧ r.outstanding = false ∧ r.strokeTimer = none)
              ∨ (r.issued = p.issued + 1 ∧ r.outstanding = true ∧ p.issued < p.target ∧ p.dosingFailed = false
                  ∧ s.vessels.whirlpool.authority = .auto)))

/-! ### Brews and their vessels -/

/-- BREW_OPEN (R52, R53, R55): the four checks in their order, each with its result, nothing changing on a refusal;
else the new brew takes the lowest free row, whose number the REPLY carries, and BREW_STATE is raised. -/
def Obligations.BrewOpenRequests : Prop :=
  ∀ (f : BrewFields) (rq : Request) (s : State), Asks rq (.brewOpen f) s →
    let c := Instr.brewOpen rq
    let known := ∃ b, some b ∈ s.brews ∧ b.number = f.number
    let free := fun r => s.brews[r]? = some none
    let sound := recipeValid s.tables f.recipe = true
      ∧ (∀ v pos, pos < listCount s.tables f.recipe v → stepValid s.tables (listRow s.tables f.recipe v pos) = true)
      ∧ ∀ i, i < (recipeRow s.tables f.recipe).addCount →
          additionValid s.tables (additionListRow s.tables f.recipe i) = true
    let strain := f.strain = 0 ∨ strainValid s.tables (f.strain - 1) = true
    let brew : Brew :=
      { number := f.number, recipe := f.recipe, fermenter := f.fermenter, strain := f.strain, override := f.override
        gravity := f.gravity, lag := f.lag, state := .opened, occupied := [], mash := none, boil := none
        castNo := none }
    (known → Answers c 8 rq .duplicate [] s (taken s))
    ∧ (¬known → (∀ r, ¬free r) → Answers c 8 rq .tableFull [] s (taken s))
    ∧ ∀ r, ¬known → free r → (∀ q < r, ¬free q) →
        (¬sound → Answers c 8 rq .recipeInvalid [] s (taken s))
        ∧ (sound → ¬strain → Answers c 8 rq .strainInvalid [] s (taken s))
        ∧ (sound → strain → Answers c 8 rq .ok (num 1 r) s
            (raise .brewState .none (some f.number) (.num 0) { taken s with brews := s.brews.set r (some brew) }))

/-- BREW_ASSIGN (R53, R57): NOT_FOUND, BUSY and VESSEL_BUSY in their order, nothing changing; else the brew becomes
MASHING in the mashing vessel with its mash record at zero, and the mash sequencer is ARMED with the recipe's list. -/
def Obligations.BrewAssignRequests : Prop :=
  ∀ (n : Nat) (rq : Request) (s : State), Asks rq (.brewAssign n) s →
    let c := Instr.brewAssign rq
    let m := s.vessels.mash
    (brew? s n = none → Answers c 9 rq .notFound [] s (taken s))
    ∧ ∀ b, brew? s n = some b →
      (b.state ≠ .opened → Answers c 9 rq .busy [] s (taken s))
      ∧ (b.state = .opened → ¬(m.occupancy = .empty ∧ vesselValid s.tables .mash = true) →
          Answers c 9 rq .vesselBusy [] s (taken s))
      ∧ (b.state = .opened → m.occupancy = .empty → vesselValid s.tables .mash = true →
          Answers c 9 rq .ok [] s (raise .brewState (.vessel .mash) (some n) (.num 1)
            { taken s with
              vessels := { s.vessels with mash := { m with occupant := some n, occupancy := .resident } }
              brews := s.brews.map (Option.map fun x =>
                if x.number = n then
                  { x with state := .mashing, occupied := [.mash]
                           mash := some { steps := 0, rest := 0, deviation := 0 } }
                else x)
              seqs := { s.seqs with mash :=
                { s.seqs.mash with
                  state := .armed, list := some b.recipe
                  causes := { hand := m.authority == .hand
                              stale := !freshPoint s (vesselRow s.tables .mash).pv
                              link := s.loop.linkDown, power := s.pins.powerFail } } } }))

/-- BREW_ABANDON (R58, R84): NOT_FOUND, and BUSY for a brew in CAST or ABANDONED; else the brew is ABANDONED, and of
all sequencers those of its vessels are halted, one IDLE in a FILLING vessel with them, every occupant and occupancy
standing. -/
def Obligations.BrewAbandonRequests : Prop :=
  ∀ (n : Nat) (rq : Request) (s : State), Asks rq (.brewAbandon n) s →
    let c := Instr.brewAbandon rq
    (brew? s n = none → Answers c 10 rq .notFound [] s (taken s))
    ∧ ∀ b, brew? s n = some b →
      (b.state = .cast ∨ b.state = .abandoned → Answers c 10 rq .busy [] s (taken s))
      ∧ (b.state ≠ .cast → b.state ≠ .abandoned → ∃ t, exec c s = .next t ∧ Replied 10 rq .ok [] t
          ∧ t.ruled = (taken s).ruled
          ∧ (∃ d, brew? t n = some d ∧ d.state = .abandoned ∧ d.occupied = b.occupied)
          ∧ ∀ v, (t.vessels.get v).occupant = (s.vessels.get v).occupant
              ∧ (t.vessels.get v).occupancy = (s.vessels.get v).occupancy
              ∧ (t.seqs.get v).state =
                  if v ∈ b.occupied ∧ ¬((s.seqs.get v).state = .idle ∧ (s.vessels.get v).occupancy ≠ .filling)
                  then .halted else (s.seqs.get v).state)

/-- BREW_RELEASE (R59): the row of a brew in CAST or ABANDONED that names no vessel becomes free, and the brew's
additions not yet sent are removed unrecorded (R103; the moment is the model's choice, log 39), with no event; a number
no row holds is NOT_FOUND, any other brew BUSY, with nothing changed. -/
def Obligations.BrewReleaseRequests : Prop :=
  ∀ (n : Nat) (rq : Request) (s : State), Asks rq (.brewRelease n) s →
    let c := Instr.brewRelease rq
    ((∀ b, some b ∈ s.brews → b.number ≠ n) → Answers c 11 rq .notFound [] s (taken s))
    ∧ ∀ r b, s.brews[r]? = some (some b) → b.number = n → (∀ q x, q < r → s.brews[q]? = some (some x) → x.number ≠ n) →
      ((b.state = .cast ∨ b.state = .abandoned) → b.occupied = [] →
        Answers c 11 rq .ok [] s
          { taken s with
            brews := s.brews.set r none
            boil := { s.boil with
              sendQueue := s.boil.sendQueue.filter fun e => e.brew != n
              headRefused := s.boil.headRefused && !(s.boil.sendQueue.head?.any fun e => e.brew == n) } })
      ∧ (¬((b.state = .cast ∨ b.state = .abandoned) ∧ b.occupied = []) → Answers c 11 rq .busy [] s (taken s))

/-- The requests that read a record, in pages (R59, R111, R152, R173). BREW_READ and CAST_READ answer a page of the
whole record or NOT_FOUND, DUTY_READ its figures or NOT_READY with the journal not READY, and nothing changes. Of a
paged reply of up to 255 pages each page carries its number, the page count and up to 116 bytes; the count is the
least that holds the data, and at least 1; a page at or above it carries no bytes; and the pages in order are the
data. That NOT_FOUND carries the page number and a page count of 1 is the model's deduction (log 15). -/
def Obligations.RecordReadRequests : Prop :=
  (∀ (rq : Request) (s : State),
     (∀ n p, Asks rq (.brewRead n p) s →
       (∀ b, brew? s n = some b → Answers (.brewRead rq) 12 rq .ok (pageOf p (brewData b)) s (taken s))
       ∧ (brew? s n = none → Answers (.brewRead rq) 12 rq .notFound (pageOf p []) s (taken s)))
     ∧ (∀ p, Asks rq (.castRead p) s →
       (∀ c, s.castMeter.record = some c → Answers (.castRead rq) 23 rq .ok (pageOf p (castData c)) s (taken s))
       ∧ (s.castMeter.record = none → Answers (.castRead rq) 23 rq .notFound (pageOf p []) s (taken s)))
     ∧ (Asks rq .dutyRead s →
       (s.journal.mount = .ready → Answers (.dutyRead rq) 26 rq .ok (dutyData s) s (taken s))
       ∧ (s.journal.mount ≠ .ready → Answers (.dutyRead rq) 26 rq .notReady [] s (taken s))))
  ∧ ∀ data : List Byte, data.length ≤ 255 * 116 →
    let n := pageCount data
    1 ≤ n ∧ data.length ≤ n * 116 ∧ (1 < n → (n - 1) * 116 < data.length)
    ∧ (∀ p, p ≤ 255 → ∃ bytes, pageOf p data = BitVec.ofNat 8 p :: BitVec.ofNat 8 n :: bytes ∧ bytes.length ≤ 116
        ∧ (n ≤ p → bytes = []) ∧ (p + 1 < n → bytes.length = 116))
    ∧ (List.range n).flatMap (fun p => (pageOf p data).drop 2) = data

/-- VESSEL_CLEAR (R62, R68): an EMPTY vessel is answered OK and the rows of the table that answer BUSY change nothing;
a cleared vessel is EMPTY with its sequencer IDLE, and its brew stays in no vessel and becomes ABANDONED, or goes on
in the destination of a DRAINING vessel, or stays in the source of a FILLING one. That the source of a cleared FILLING
vessel keeps its sequencer's state is the model's deduction (log 22), and so is that no sequencer BLOCKED on the
cleared vessel goes on within the request: TRANSFER_UNBLOCKED is a command of its own (log 6). -/
def Obligations.VesselClearRequests : Prop :=
  ∀ (v : Vessel) (rq : Request) (s : State), Asks rq (.vesselClear v) s →
    let c := Instr.vesselClear rq
    let r := s.vessels.get v
    let q := (s.seqs.get v).state
    let casting := v = .whirlpool ∧ ∃ k, s.castMeter.record = some k ∧ k.state ≠ .closed
    let cleared := fun t : State => Replied 13 rq .ok [] t ∧ t.ruled = (taken s).ruled
      ∧ (t.vessels.get v).occupancy = .empty ∧ (t.vessels.get v).occupant = none ∧ (t.seqs.get v).state = .idle
    (r.occupancy = .empty → Answers c 13 rq .ok [] s (taken s))
    ∧ (r.occupancy ≠ .empty → casting → Answers c 13 rq .busy [] s (taken s))
    ∧ (r.occupancy ≠ .empty → q = .armed ∨ q = .running ∨ q = .suspended ∨ q = .blocked →
        Answers c 13 rq .busy [] s (taken s))
    ∧ (r.occupancy = .filling → q = .idle → (∀ u, sourceOf v = some u → (s.seqs.get u).state ≠ .halted) →
        Answers c 13 rq .busy [] s (taken s))
    ∧ ∀ n b, r.occupant = some n → brew? s n = some b → ¬casting →
      (r.occupancy = .resident → q = .halted → ∃ t, exec c s = .next t ∧ cleared t
        ∧ (∃ d, brew? t n = some d ∧ d.occupied = b.occupied.filter (· != v)
            ∧ d.state = if d.occupied = [] then .abandoned else b.state)
        ∧ ∀ w, w ≠ v → (t.vessels.get w).occupant = (s.vessels.get w).occupant
            ∧ (t.vessels.get w).occupancy = (s.vessels.get w).occupancy
            ∧ (t.seqs.get w).state = (s.seqs.get w).state)
      ∧ (∀ w, r.occupancy = .draining → q = .halted → destinationOf v = some w →
          (s.seqs.get w).state = .idle ∨ (s.seqs.get w).state = .halted → ∃ t, exec c s = .next t ∧ cleared t
          ∧ (t.vessels.get w).occupant = some n ∧ (t.vessels.get w).occupancy = .resident
          ∧ ((s.seqs.get w).state = .idle → (t.seqs.get w).state = .armed)
          ∧ ((s.seqs.get w).state = .halted → (t.seqs.get w).state = .halted)
          ∧ (t.seqs.get w).list = some b.recipe
          ∧ ∃ d, brew? t n = some d ∧ d.occupied = [w]
              ∧ d.state = if b.state = .abandoned then .abandoned else brewStateIn w)
      ∧ (∀ u, r.occupancy = .filling → sourceOf v = some u →
          q = .halted ∨ (q = .idle ∧ (s.seqs.get u).state = .halted) →
          ∃ t, exec c s = .next t ∧ cleared t
          ∧ (t.vessels.get u).occupant = (s.vessels.get u).occupant ∧ (t.vessels.get u).occupancy = .resident
          ∧ (t.seqs.get u).state = (s.seqs.get u).state
          ∧ ∃ d, brew? t n = some d ∧ d.occupied = [u] ∧ d.state = b.state)

/-! ### Sequencers -/

/-- VESSEL_START (R80): the rows of its table in their order; every refusal raises START_REFUSED with the vessel, its
occupant and the result, and a start taken starts the list of that vessel alone. -/
def Obligations.VesselStartRequests : Prop :=
  ∀ (v : Vessel) (rq : Request) (s : State), Asks rq (.vesselStart v) s →
    let c := Instr.vesselStart rq
    let q := s.seqs.get v
    let casting := v = .whirlpool ∧ ∃ k, s.castMeter.record = some k ∧ k.state ≠ .closed
    let abandoned := ∃ n b, (s.vessels.get v).occupant = some n ∧ brew? s n = some b ∧ b.state = .abandoned
    let refused := fun r => Answers c 14 rq r [] s
      (raise .startRefused (.vessel v) (s.vessels.get v).occupant (.num (resultCode r)) (taken s))
    (casting → refused .busy)
    ∧ (¬casting → q.state ≠ .armed → (q.state = .halted → q.list = none ∨ abandoned) → refused .notArmed)
    ∧ (¬casting → q.state = .armed ∨ (q.state = .halted ∧ q.list ≠ none ∧ ¬abandoned) →
        ∃ t, exec c s = .next t ∧ Replied 14 rq .ok [] t ∧ Started [v] (taken s) t)

/-- GROUP_START (R81): every ARMED sequencer whose vessel names the group is started, in vessel order, and the REPLY
lists their vessels; every other sequencer is left as it is, and no START_REFUSED is raised. With none, nothing changes.
A group number above 3 is answered BAD_REQUEST. -/
def Obligations.GroupStartRequests : Prop :=
  (∀ (g : Nat) (rq : Request) (s : State), Asks rq (.groupStart g) s →
    let c := Instr.groupStart rq
    let started := vessels.filter fun v => (s.seqs.get v).state == .armed && (vesselRow s.tables v).group == g
    let listed := num 1 started.length ++ started.flatMap fun v => num 1 (vesselNumber v)
    (started = [] → Answers c 15 rq .ok (num 1 0) s (taken s))
    ∧ ∃ t, exec c s = .next t ∧ Replied 15 rq .ok listed t ∧ Started started (taken s) t ∧ EventsFollow s t)
  ∧ ∀ (n : Byte) (rq : Request) (s : State), Takes (queuedOf 15 rq) s → rq.params = [n] → 3 < n.toNat →
    Answers (.groupStart rq) 15 rq .badRequest [] s (taken s)

/-- VESSEL_HALT (R82, R84): BUSY for the whirlpool while a cast is open, with nothing changed; else the sequencer is
HALTED, or stays IDLE unless its vessel is FILLING; a step it was at ends with its step lock cleared, its heat demand
is forced to 0, and its list, setpoint and integral stay, as do every occupancy and the other sequencers. -/
def Obligations.VesselHaltRequests : Prop :=
  ∀ (v : Vessel) (rq : Request) (s : State), Asks rq (.vesselHalt v) s →
    let c := Instr.vesselHalt rq
    let q := s.seqs.get v
    let casting := v = .whirlpool ∧ ∃ k, s.castMeter.record = some k ∧ k.state ≠ .closed
    (casting → Answers c 16 rq .busy (num 1 (seqStateCode q.state)) s (taken s))
    ∧ (¬casting → ∃ t, exec c s = .next t ∧ Replied 16 rq .ok (num 1 (seqStateCode (t.seqs.get v).state)) t
        ∧ t.ruled = (taken s).ruled
        ∧ (let p := t.seqs.get v
           (p.state = if q.state = .idle ∧ (s.vessels.get v).occupancy ≠ .filling then .idle else .halted)
            ∧ p.list = q.list ∧ p.setpoint = q.setpoint ∧ p.integral = q.integral ∧ p.causes = q.causes
            ∧ (q.state = .running ∨ q.state = .suspended ∨ q.state = .blocked →
                p.position = none ∧ p.blocked = none ∧ (t.vessels.get v).stepLock = false
                ∧ (heated v = true → p.lastDemand = 0 ∧ p.zeroForced = true)))
        ∧ ∀ w, (t.vessels.get w).occupant = (s.vessels.get w).occupant
            ∧ (t.vessels.get w).occupancy = (s.vessels.get w).occupancy
            ∧ (w ≠ v → (t.seqs.get w).state = (s.seqs.get w).state))

/-- CONTINUE (R83, R102): it ends a WAIT or a TRANSFER in effect, at a BOIL step it confirms a pending addition, and
anywhere else it does nothing; the REPLY carries which. -/
def Obligations.ContinueRequests : Prop :=
  ∀ (v : Vessel) (rq : Request) (s : State), Asks rq (.continueStep v) s →
    let c := Instr.continueStep rq
    let q := s.seqs.get v
    ((∀ st, currentStep s v = some st →
        st.kind ≠ .boil ∧ (st.kind = .wait ∨ st.kind = .transfer → q.phase ≠ .inEffect)) →
      Answers c 17 rq .ok (num 1 3) s (taken s))
    ∧ ∀ st, currentStep s v = some st →
      (st.kind = .boil → s.boil.pending = none → Answers c 17 rq .ok (num 1 2) s (taken s))
      ∧ (∀ i n b, st.kind = .boil → s.boil.pending = some i → s.vessels.kettle.occupant = some n → brew? s n = some b →
          ∃ t, exec c s = .next t ∧ Replied 17 rq .ok (num 1 2) t ∧ t.ruled = (taken s).ruled
            ∧ t.boil.pending = none ∧ t.boil.confirmTimer = none ∧ t.boil.cursor = i + 1
            ∧ ∀ w, (t.seqs.get w).state = (s.seqs.get w).state)
      ∧ (∀ pos recipe, st.kind = .wait → q.phase = .inEffect → q.position = some pos → q.list = some recipe →
          ∃ t, exec c s = .next t ∧ Replied 17 rq .ok (num 1 0) t ∧ StepsOn v recipe pos (taken s) t)
      ∧ (∀ n w, st.kind = .transfer → q.phase = .inEffect → (s.vessels.get v).occupant = some n →
          destinationOf v = some w → (s.seqs.get w).state = .idle ∨ (s.seqs.get w).state = .halted →
          ∃ t, exec c s = .next t ∧ Replied 17 rq .ok (num 1 1) t ∧ t.ruled = (taken s).ruled
            ∧ (t.vessels.get v).occupancy = .empty ∧ (t.vessels.get v).occupant = none
            ∧ (t.seqs.get v).state = .idle ∧ (t.vessels.get w).occupant = some n
            ∧ ((s.seqs.get w).state = .halted →
                (t.seqs.get w).state = .halted ∧ (t.vessels.get w).occupancy = .resident)
            ∧ ((s.seqs.get w).state = .idle → Suspending s w →
                (t.seqs.get w).state = .suspended ∧ (t.seqs.get w).position = some 0)
            ∧ ((s.seqs.get w).state = .idle → ¬Suspending s w →
                (t.seqs.get w).state = .running ∨ (t.seqs.get w).state = .blocked))

/-- The timers of the sequencers and of the Boil Unit. The hold timer of a HOLD on a vessel with no heat point (R88):
at hold seconds of RUNNING time the step completes, and not before. The refresh timer of a RUNNING heating step with
nothing unsent (R93): at the refresh interval, and not before, the last demand goes to the heat point once more as a
DRIVE of origin OWN (here to a busy downstream port with room in the queue), and nothing else changes. A forced zero
that no computed demand has followed is not refreshed (R94, log 45): the timer restarts and nothing else. The confirm
timer (R102): 120,000 ms after the pending addition became due, and not before, it is recorded missed with cause
TIMEOUT, ADDITION_MISSED names the kettle, its brew and the index, and the cursor moves on. -/
def Obligations.VesselTimersExpire : Prop :=
  (∀ (v : Vessel) (s : State), s.mode = .active → heated v = false →
     ∀ st pos recipe since, currentStep s v = some st → st.kind = .hold →
       let q := s.seqs.get v
       q.phase = .inEffect → q.state = .running → q.position = some pos → q.list = some recipe →
       q.holdSince = some since →
       let run := q.holdElapsed + (s.loopTime - since).toNat
       (1000 * st.hold ≤ run → ∃ t, exec (.holdTimerExpiry v) s = .next t ∧ StepsOn v recipe pos s t)
       ∧ (run < 1000 * st.hold → exec (.holdTimerExpiry v) s = .next s))
  ∧ (∀ (v : Vessel) (row : Nat) (start : LoopTime) (p : PointRow) (s : State), s.mode = .active → s.tells = [] →
     let q := s.seqs.get v
     q.refreshTimer = some start →
     let passed := (s.loopTime - start).toNat
     (passed < (vesselRow s.tables v).refresh → exec (.refreshTimerExpiry v) s = .next s)
     ∧ ((vesselRow s.tables v).refresh ≤ passed → heated v = true → q.state = .running →
         currentKind s v = some .hold ∨ currentKind s v = some .ramp ∨ currentKind s v = some .boil →
         vesselValid s.tables v = true → (vesselRow s.tables v).heat = some row → point? s.tables row = some p →
         q.unsent = [] → (v = .kettle → s.boil.sendQueue = [] ∧ s.boil.headRefused = false) →
         (q.zeroForced = true → exec (.refreshTimerExpiry v) s
           = .next (settle { s with seqs := s.seqs.set v { q with refreshTimer := some s.loopTime } }))
         ∧ (q.zeroForced = false → s.loop.port ≠ .idle → s.loop.queue.length < 32 →
         let drive : Frame :=
           { kind := 0x02, dest := BitVec.ofNat 8 p.station, source := s.stationAddress, hop := 0, tag := 0
             payload := num 1 p.channel ++ num 1 0 ++ num 2 q.lastDemand, check := 0 }
         (∀ x ∈ s.loop.queue, ¬(x.frame.kind = 0x02 ∧ x.frame.dest = drive.dest
           ∧ x.frame.payload.head? = drive.payload.head?)) →
         ∃ t more, exec (.refreshTimerExpiry v) s = .next t ∧ t.rest = s.rest
           ∧ t.loop.queue = s.loop.queue ++ { frame := drive.sealed, entry := s.loopTime, owner := .sequencer v } :: more)))
  ∧ (∀ (i n : Nat) (start : LoopTime) (s : State), s.mode = .active → s.tells = [] →
     s.boil.confirmTimer = some start → s.boil.pending = some i → s.vessels.kettle.occupant = some n →
     let passed := (s.loopTime - start).toNat
     let missed : BoilRecord → BoilRecord := fun r => { r with missed := r.missed ++ [(i, .timeout)] }
     (passed < 120000 → exec .confirmTimerExpiry s = .next s)
     ∧ (120000 ≤ passed → Leaves .confirmTimerExpiry s
         (raise .additionMissed (.vessel .kettle) (some n) (.num i)
           { s with
             boil := { s.boil with pending := none, confirmTimer := none, cursor := i + 1 }
             brews := s.brews.map fun row => row.map fun b =>
               if b.number = n then { b with boil := b.boil.map missed } else b })))

/-- A TRANSFER step BLOCKED on its destination (R64, R65): with the destination available it takes effect, the source
DRAINING into a FILLING destination that names its brew, the step lock set, the sequencer RUNNING at the same
position; with the destination not available nothing happens. -/
def Obligations.BlockedTransferTakesEffect : Prop :=
  ∀ (v w : Vessel) (st : StepRow) (s : State), s.mode = .active → destinationOf v = some w →
    let q := s.seqs.get v
    q.state = .blocked → q.blocked = some .destinationBusy → currentStep s v = some st → st.kind = .transfer →
    (s.vessels.get v).occupancy ≠ .draining →
    let free := (s.vessels.get w).occupancy = .empty ∧ vesselValid s.tables w = true
    (¬free → exec (.transferUnblocked v) s = .next s)
    ∧ (free → ∃ t, exec (.transferUnblocked v) s = .next t ∧ t.ruled = s.ruled
        ∧ (t.vessels.get v).occupancy = .draining ∧ (t.vessels.get v).occupant = (s.vessels.get v).occupant
        ∧ (t.vessels.get v).stepLock = true
        ∧ (t.vessels.get w).occupancy = .filling ∧ (t.vessels.get w).occupant = (s.vessels.get v).occupant
        ∧ (t.seqs.get v).state = .running ∧ (t.seqs.get v).phase = .inEffect ∧ (t.seqs.get v).blocked = none
        ∧ (t.seqs.get v).position = q.position
        ∧ (∀ u, u ≠ v → (t.seqs.get u).state = (s.seqs.get u).state)
        ∧ ∀ n b, (s.vessels.get v).occupant = some n → brew? s n = some b →
            ∃ d, brew? t n = some d ∧ d.occupied = [v, w] ∧ d.state = b.state)

/-- The heating loop and the ramp (R86, R92). The integral stays within 0 to 1,000,000 and the demand within 0 to
1,000; at no error the demand is the integral's; a demand held at an end by the error does not wind the integral
further that way, and a step with no time keeps it. A ramp takes its setpoint from the first value; a move that does
not reach the target and the remainder it keeps are together exactly the rate times the time, and no move passes the
target. An accepted sample of the temperature point of a RUNNING HOLD or RAMP does this work (R30, R85 to R87, R92,
R93): the rest clock and the mash record gain its time when the former value was within tolerance, the setpoint moves,
the integral and the demand are computed and the demand is offered (the first after a forced zero whatever the deadband,
R94, log 45), after which the blocks settle; the step completes when the rest clock has reached the hold, or the setpoint
its target with the value within tolerance, and not before. -/
def Obligations.HeatingLoopAndRamp : Prop :=
  (∀ (kp ki : Nat) (setpoint value i : Int) (dt : Nat), 0 ≤ i → i ≤ 1000000 →
    let r := piDemand kp ki setpoint value i dt
    (0 ≤ r.1 ∧ r.1 ≤ 1000000 ∧ r.2 ≤ 1000)
    ∧ (setpoint = value → r.1 = i ∧ (r.2 : Int) = i / 1000)
    ∧ (dt = 0 → r.1 = i)
    ∧ (100100 ≤ kp * (setpoint - value) ∨ 100100 ≤ kp * (value - setpoint) → r.1 = i)
    ∧ (value < setpoint → i ≤ r.1) ∧ (setpoint < value → r.1 ≤ i))
  ∧ (∀ (rem rate dt : Nat) (target value : Int),
    rampMove none rem rate dt target value = (value, rem)
    ∧ rampMove (some target) rem rate dt target value = (target, rem)
    ∧ ∀ sp : Int, sp ≠ target →
      let r := rampMove (some sp) rem rate dt target value
      r.2 < 60000
      ∧ (sp < target → sp ≤ r.1 ∧ r.1 ≤ target
          ∧ (r.1 < target → 60000 * (r.1 - sp) + r.2 = rem + rate * dt))
      ∧ (target < sp → target ≤ r.1 ∧ r.1 ≤ sp
          ∧ (target < r.1 → 60000 * (sp - r.1) + r.2 = rem + rate * dt)))
  ∧ ∀ (f : Frame) (i : SampleItem) (r : Nat) (x : Int) (clamped : Bool) (v : Vessel) (st : StepRow) (hp : Nat)
      (p : PointRow) (s : State),
    Samples f i r x clamped s → Heating v st r s → heatRow? s.tables v = some hp → point? s.tables hp = some p →
    let c := Instr.frameComplete f.bytes
    let q := s.seqs.get v
    let row := vesselRow s.tables v
    let former := formerReading s r
    let dt := sampleTime q former s.loopTime
    let near := fun y : Int => (y - st.target).natAbs ≤ st.tolerance
    let goesOn := fun (d : Nat) (k : Sequencer → Prop) => ∃ u, exec c s = .next (settle (settle u))
      ∧ DemandOffered v d hp p s u ∧ k (u.seqs.get v) ∧ (u.seqs.get v).dtBase = true
      ∧ (u.seqs.get v).state = .running ∧ (u.seqs.get v).position = q.position
      ∧ ∀ w, w ≠ v → u.seqs.get w = s.seqs.get w
    let completes := ∀ pos recipe, q.position = some pos → q.list = some recipe →
      ∃ t, exec c s = .next t ∧ StepsOn v recipe pos (s.sampled i r x clamped) t
    (st.kind = .hold →
      let add := if ∃ y, former = some y ∧ near y.value then dt else 0
      let rest := q.restClock + add
      let on := q.onTemperature = true ∨ near x
      let h := piDemand row.kp row.ki st.target x q.integral dt
      (rest < st.hold * 1000 →
        goesOn h.2 fun k => k.restClock = rest ∧ k.integral = h.1 ∧ (k.onTemperature = true ↔ on))
      ∧ (st.hold * 1000 ≤ rest → completes)
      ∧ ∀ n b m, v = .mash → s.vessels.mash.occupant = some n → brew? s n = some b → b.mash = some m →
          ∃ t b' m', exec c s = .next t ∧ brew? t n = some b' ∧ b'.mash = some m' ∧ m'.rest = m.rest + add
            ∧ m'.deviation = (if on then max m.deviation (x - st.target).natAbs else m.deviation))
    ∧ (st.kind = .ramp →
      let move := rampMove q.setpoint q.rampRemainder st.rate dt st.target x
      let h := piDemand row.kp row.ki move.1 x q.integral dt
      (¬(move.1 = st.target ∧ near x) →
        goesOn h.2 fun k => k.setpoint = some move.1 ∧ k.rampRemainder = move.2 ∧ k.integral = h.1)
      ∧ (move.1 = st.target ∧ near x → completes))

/-! ### The boil -/

/-- The boil. The stages of a sample of the BOIL step (R100 to R102): below the threshold a boil that has not begun
does not begin; the boil begins at the threshold with its clock at 0, and its clock gains the sample's time when the
value before it was at the threshold. The walk passes the AUTO entries that are reached and no others, stops at a
reached CONFIRM entry, which becomes pending with its timer running, and does not move while one is pending. A boil is
complete on the sample that brings its clock to the target, and not before (R104): every entry not reached is missed
with TARGET_REACHED in index order, the end level and the evaporation are written, BOIL_DONE and below the minimum
LOW_EVAPORATION are raised, and the BOIL step completes. The send queue (R96, R103): a due addition joins its tail, or
is missed with SEND_FULL at 64 entries; nothing is offered under a suspension or with a frame outstanding; the head is
else offered as a DRIVE of origin OWN: refused it stays; taken it leaves, recorded fired with its brew's clock and
outstanding, but for a frame that an idle port begins at once, and after that, and after a head whose point builds no
frame, which is missed with NO_POINT, the next head is offered. -/
def Obligations.BoilSamplesWalkTheAdditions : Prop :=
  (∀ (b : Brew) (value : Int) (previous : Option Int) (dt : Nat) (s : State),
     let row := recipeRow s.tables b.recipe
     let entry := fun i => additionAt s.tables b.recipe i
     let boiling := ∃ p, previous = some p ∧ (row.threshold : Int) ≤ p
     let t := boilStages b value previous dt s
     (s.boil.begun = false → value < row.threshold → t = s)
     ∧ (s.boil.begun = true ∨ (row.threshold : Int) ≤ value →
         t.boil.begun = true
         ∧ (∃ base, base = (if s.boil.begun then s.boil.clock else 0)
             ∧ (boiling → t.boil.clock = base + dt) ∧ (¬boiling → t.boil.clock = base))
         ∧ (s.boil.pending ≠ none → t.boil.cursor = s.boil.cursor ∧ t.boil.pending = s.boil.pending
             ∧ t.boil.confirmTimer = s.boil.confirmTimer)
         ∧ (s.boil.pending = none → s.boil.cursor ≤ row.addCount →
             s.boil.cursor ≤ t.boil.cursor ∧ t.boil.cursor ≤ row.addCount
             ∧ (∀ i, s.boil.cursor ≤ i → i < t.boil.cursor →
                 (entry i).confirm = false ∧ (entry i).mark * 1000 ≤ t.boil.clock)
             ∧ (∀ i, t.boil.pending = some i → i = t.boil.cursor ∧ i < row.addCount ∧ (entry i).confirm = true
                 ∧ (entry i).mark * 1000 ≤ t.boil.clock ∧ t.boil.confirmTimer = some s.loopTime)
             ∧ (t.boil.pending = none → t.boil.cursor < row.addCount →
                 t.boil.clock < (entry t.boil.cursor).mark * 1000))))
  ∧ (∀ (st : StepRow) (b : Brew) (value : Int) (previous : Option Int) (dt : Nat) (s : State),
      occupantBrew? s .kettle = some b →
      let u := boilStages b value previous dt s
      let t := boilSample st value previous dt s
      let complete := u.boil.begun = true ∧ (recipeRow s.tables b.recipe).target * 1000 ≤ u.boil.clock
      (complete → ∃ w, t = completeStep .kettle (completeBoil b w) ∧ w.boil = u.boil ∧ w.brews = u.brews)
      ∧ (¬complete → t.boil = u.boil ∧ t.brews = u.brews))
  ∧ (∀ (b x : Brew) (r : BoilRecord) (s : State), brew? s b.number = some x → x.boil = some r →
      let row := recipeRow s.tables b.recipe
      let first := s.boil.cursor
      let level := kettleLevel s
      let t := completeBoil b s
      let done := fun arg => ∃ u, t = raise .boilDone (.vessel .kettle) (some b.number) arg u
      t.boil = { s.boil with pending := none, confirmTimer := none, cursor := row.addCount }
      ∧ ∃ y w, brew? t b.number = some y ∧ y.boil = some w
        ∧ w.missed
            = r.missed ++ (List.range' first (row.addCount - first)).map (fun i => (i, MissCause.targetReached))
        ∧ w.fired = r.fired ∧ w.clock = r.clock ∧ w.start = r.start ∧ w.startLevel = r.startLevel ∧ w.halted = r.halted
        ∧ w.endLevel = level ∧ w.levelMissing = (r.levelMissing || level.isNone)
        ∧ (r.startLevel = none ∨ level = none →
            w.evaporation = none ∧ w.lowEvaporation = r.lowEvaporation ∧ done .absent)
        ∧ ∀ x y, r.startLevel = some x → level = some y →
          let permille := if x = 0 then 0 else (x - y) * 1000 / x
          w.evaporation = some (x - y, permille)
          ∧ (permille < row.minEvap → w.lowEvaporation = true
              ∧ ∃ u, t = raise .lowEvaporation (.vessel .kettle) (some b.number) (.num permille) u)
          ∧ (row.minEvap ≤ permille → w.lowEvaporation = r.lowEvaporation ∧ done (.num permille)))
  ∧ ∀ s : State,
    let u := s.boil
    let noted := fun (e : SendEntry) (kind : EventKind) (change : BoilRecord → BoilRecord) (v : State) =>
      raise kind (.vessel .kettle) (some e.brew) (.num e.index)
        { v with brews := v.brews.map fun row => row.map fun b =>
            if b.number = e.brew then { b with boil := b.boil.map change } else b }
    let missed := fun (e : SendEntry) (cause : MissCause) (r : BoilRecord) =>
      { r with missed := r.missed ++ [(e.index, cause)] }
    let fired := fun (e : SendEntry) (r : BoilRecord) => { r with fired := r.fired ++ [(e.index, r.clock)] }
    (∀ n i a, let e : SendEntry := { brew := n, index := i, point := a.point, quantity := a.quantity }
      (u.sendQueue.length < 64 →
        joinSend n i a s = boilPump { s with boil := { u with sendQueue := u.sendQueue ++ [e] } })
      ∧ (64 ≤ u.sendQueue.length → joinSend n i a s = noted e .additionMissed (missed e .sendFull) s))
    ∧ (s.seqs.kettle.state = .suspended ∨ u.outstanding = true → boilPump s = s)
    ∧ ∀ e rest, s.seqs.kettle.state ≠ .suspended → u.outstanding = false → u.sendQueue = e :: rest →
      let left := { u with sendQueue := rest, headRefused := false }
      let builds := fun p => point? s.tables e.point = some p ∧ p.kind = .additionDrive
      (brew? s e.brew = none → boilPump s = boilPump { s with boil := left })
      ∧ ((brew? s e.brew).isSome = true → ¬(∃ p, builds p) →
        boilPump s = boilPump (noted e .additionMissed (missed e .noPoint) { s with boil := left }))
      ∧ ∀ p, (brew? s e.brew).isSome = true → builds p →
        let drive : Frame :=
          { kind := 0x02, dest := BitVec.ofNat 8 p.station, source := s.stationAddress, hop := 0, tag := 0
            payload := num 1 p.channel ++ num 1 0 ++ num 2 e.quantity, check := 0 }
        let sent := offer drive .boilUnit s
        (sent.1 = .refused → boilPump s = { sent.2 with boil := { u with headRefused := true } })
        ∧ (sent.1 = .queued → boilPump s =
            noted e .additionFired (fired e) { sent.2 with boil := { left with outstanding := true } })
        ∧ (sent.1 = .begun → boilPump s =
            boilPump (noted e .additionFired (fired e) { sent.2 with boil := left }))

/-! ### The cast -/

/-- A refused open attempt made again (R112 to R114): the first of the nine checks that fails is the reason, with no
cast created and nothing reserved; with none failing the cast opens with its CAST_OPEN record queued, two more blocks
reserved, the brew CASTING, and the sequencer RUNNING. -/
def Obligations.CastOpenRetries : Prop :=
  ∀ (n : Nat) (b : Brew) (st : StepRow) (old : OpenRefusal) (s : State), s.mode = .active → s.tells = [] →
    let q := s.seqs.whirlpool
    q.state = .blocked → q.blocked = some (.castRefused old) → currentStep s .whirlpool = some st →
    st.kind = .cast → s.vessels.whirlpool.occupant = some n → brew? s n = some b →
    (∀ k, s.castMeter.record = some k → k.state = .closed) →
    let j := s.journal
    let line := lineRow s.tables
    let reason : Option OpenRefusal :=
      if j.mount ≠ .ready then some .journalNotReady
      else if s.pins.protect = true then some .journalProtected
      else if j.failed = true then some .journalFailed
      else if freeRoom j < 2 then some .journalFull
      else if 4 ≤ j.queue.length then some .journalBusy
      else if j.orphans ≠ [] then some .orphans
      else if s.duty.tariff ≠ .active then some .noTariff
      else if lineValid s.tables = false ∨ correctionValid s.tables = false then some .lineInvalid
      else if (entryOf s line.temperature).current = none ∨ (entryOf s line.gravity).current = none then
        some .noLineValue
      else none
    ∃ t, exec .castOpenRetry s = .next t ∧ t.ruled = s.ruled ∧ t.vessels = s.vessels
      ∧ (∀ v, v ≠ .whirlpool → (t.seqs.get v).state = (s.seqs.get v).state)
      ∧ (∀ r, reason = some r →
          t.seqs.whirlpool.state = .blocked ∧ t.seqs.whirlpool.blocked = some (.castRefused r)
            ∧ t.castMeter.record = s.castMeter.record ∧ t.journal = j)
      ∧ (reason = none →
          t.seqs.whirlpool.state = .running ∧ t.seqs.whirlpool.blocked = none
            ∧ t.seqs.whirlpool.phase = q.phase
            ∧ (∃ c d, t.castMeter.record = some c ∧ c.state = .opening ∧ c.brew = b.number
                ∧ c.fermenter = b.fermenter ∧ c.number = t.journal.castCount ∧ c.tariffSeq = s.duty.activeSeq
                ∧ c.opened = s.loopTime ∧ c.closed = none ∧ c.endCause = none ∧ c.pauses = [] ∧ c.v20 = 0
                ∧ c.r = 0 ∧ c.gv = 0 ∧ c.lineVolume = 0 ∧ c.lastCount = none
                ∧ (c.pitch = none ↔ b.strain = 0)
                ∧ t.journal.queue = j.queue ++ [d] ∧ d.brew = b.number
                ∧ ∃ body, d.body = .castOpen body ∧ body.cast = c.number ∧ body.fermenter = b.fermenter
                    ∧ body.opened = s.loopTime ∧ body.tariffSeq = s.duty.activeSeq)
            ∧ t.journal.castCount = (if j.castCount = 4294967295 then 1 else j.castCount + 1)
            ∧ t.journal.reservations = j.reservations + 2
            ∧ ∃ d, brew? t b.number = some d ∧ d.state = .casting ∧ d.castNo = some t.journal.castCount)

/-- Metering a flow sample (R116 to R118): no pulse is lost. The first count is only kept; more pulses than the limit
are rebased and meter nothing; any other sample adds its product dp × K × f to 10⁶ × V20 + R exactly. Outside METERING,
PAUSED and SETTLING a flow sample changes nothing. The factor lies on the table's points at the multiples of 1 °C. An
accepted sample of the Line Table's flow point does this to the open cast's record, and its pitch part's target is then
the strokes due for the new GV (R30, R130), with PITCH_LAG above the lag limit, or above half of it if it was set
(R136). -/
def Obligations.FlowSamplesAreMetered : Prop :=
  (∀ (t : Tables) (x : Int) (i : Nat), i ≤ 31 → x = 100 * i → correctionFactor t x = factorAt t i)
  ∧ (∀ (t : Tables) (x : Int), (x ≤ 0 → correctionFactor t x = factorAt t 0)
      ∧ (3100 ≤ x → correctionFactor t x = factorAt t 31))
  ∧ ∀ (c : Cast) (count : BitVec 32) (s : State), s.castMeter.record = some c →
    let line := lineRow s.tables
    let f := (correctionFactor s.tables (valueOf s line.temperature)).toNat
    let g := (valueOf s line.gravity).toNat
    let meters := c.state = .metering ∨ c.state = .paused ∨ c.state = .settling
    let stands := fun d : Cast => d.v20 = c.v20 ∧ d.r = c.r ∧ d.gv = c.gv ∧ d.lineVolume = c.lineVolume
    let metered := fun (last : BitVec 32) (d : Cast) =>
      let dp := (count - last).toNat
      d.lastCount = some count ∧ d.number = c.number
        ∧ d.brew = c.brew ∧ d.tariffSeq = c.tariffSeq ∧ d.endCause = c.endCause
        ∧ (line.maxPulses < dp →
            stands d ∧ d.rebases = min 65535 (c.rebases + 1) ∧ d.flags.meterRebased = true)
        ∧ (dp ≤ line.maxPulses → 1000000 * c.v20 + c.r + dp * line.k * f < 1000000 * 2 ^ 64 →
            d.r < 1000000 ∧ 1000000 * d.v20 + d.r = 1000000 * c.v20 + c.r + dp * line.k * f
              ∧ (c.gv + g * (d.v20 - c.v20) < 2 ^ 64 → d.gv = c.gv + g * (d.v20 - c.v20))
              ∧ d.rebases = c.rebases
              ∧ (d.flags.gravityHeld = true ↔ c.flags.gravityHeld = true ∨ freshPoint s line.gravity = false))
    (¬meters → flowSample count s = s)
    ∧ (meters → c.lastCount = none →
        flowSample count s = { s with castMeter := { s.castMeter with record := some { c with lastCount := some count } } })
    ∧ (∀ last, meters → c.lastCount = some last →
      ∃ d, (flowSample count s).castMeter.record = some d ∧ metered last d
        ∧ (line.maxPulses < (count - last).toNat → d.state = c.state))
    ∧ ∀ (m : Frame) (i : SampleItem) (r : Nat) (x : Int) (clamped : Bool), Samples m i r x clamped s →
      DeliversTo s r [] [] true → line.flow = r → line.temperature ≠ r → line.gravity ≠ r → count = BitVec.ofInt 32 x →
      ∃ t d, exec (.frameComplete m.bytes) s = .next t ∧ t.castMeter.record = some d
        ∧ (¬meters → stands d ∧ d.lastCount = c.lastCount)
        ∧ (meters → c.lastCount = none → stands d ∧ d.lastCount = some count)
        ∧ ∀ last, meters → c.lastCount = some last → metered last d
          ∧ ∀ p, c.pitch = some p → (count - last).toNat ≤ line.maxPulses →
            let due := targetStrokes (strainOf s.tables p.strain) p.rate d.gv
            let limit := (strainOf s.tables p.strain).lagLimit
            due < 2 ^ 64 → ∃ q, d.pitch = some q ∧ q.target = due ∧ q.strain = p.strain ∧ q.rate = p.rate
              ∧ (q.pitchLag = true ↔
                  (if p.pitchLag then limit / 2 else limit) < due - (p.confirmed + p.unconfirmed))

/-- The settle timer (R123, R125): at the settle interval a cast with no stroke outstanding enters CHARGING with its
volume final, its duty part computed, and its CAST_CLOSE record queued in the block reserved for it, or kept when
the queue is full; with a stroke outstanding it waits. Before the interval nothing happens. -/
def Obligations.SettleTimerExpires : Prop :=
  ∀ (c : Cast) (start : LoopTime) (s : State), s.mode = .active → s.tells = [] →
    s.castMeter.record = some c → c.state = .settling → c.settleTimer = some start →
    let passed := (s.loopTime - start).toNat
    let stroke := ∃ p, c.pitch = some p ∧ p.outstanding = true
    (passed < (lineRow s.tables).settle → exec .settleTimerExpiry s = .next s)
    ∧ ((lineRow s.tables).settle ≤ passed → stroke → Leaves .settleTimerExpiry s
        { s with castMeter := { s.castMeter with record := some { c with settleTimer := none, settleOver := true } } })
    ∧ ((lineRow s.tables).settle ≤ passed → ¬stroke →
        ∃ t d part, exec .settleTimerExpiry s = .next t ∧ t.works = s.works
          ∧ t.castMeter.record = some d ∧ d.state = .charging ∧ d.closed = some s.loopTime ∧ d.pauses = []
          ∧ d.v20 = c.v20 ∧ d.gv = c.gv ∧ d.lineVolume = c.lineVolume ∧ d.endCause = c.endCause
          ∧ d.flags = c.flags ∧ d.duty = some part
          ∧ part = computeDuty s.duty.active s.duty.activeSeq .metered (c.v20 / 1000) (meanGravity c.v20 c.gv)
              (s.duty.account.ytd + (s.duty.charges.map Charge.cdl).sum)
          ∧ (s.journal.queue.length < 4 → t.castMeter.keptClose = none
              ∧ (∃ r, t.journal = { s.journal with queue := s.journal.queue ++ [r] } ∧ r.body = .castClose d)
              ∧ t.duty.charges = s.duty.charges ++ [{ cast := c.number, dl := part.dl, cdl := part.cdl, d := part.d }])
          ∧ (4 ≤ s.journal.queue.length → t.journal = s.journal ∧ t.duty = s.duty
              ∧ ∃ r, t.castMeter.keptClose = some r ∧ r.body = .castClose d))

/-- Pitching. The strokes due for a GV are the whole strokes in GV × rate / (1,000 × C × v × S) (R130). The lag is the
target less the confirmed and unconfirmed strokes: above the limit it sets PITCH_LAG and LAGGED, at half the limit it
clears PITCH_LAG, and between it keeps the flag (R129, R136); the condition PITCH_LAG has the flag of a METERING,
PAUSED or SETTLING cast as its cause. A try issues a stroke when all the conditions of R131 hold, no earlier dose
DRIVE of the unit is queued for the point (R15), and the insertion queue takes the frame; refused, the stroke is
unsent; and with a condition failing nothing changes. The stroke timer (R134, R135): at the stroke timeout, and not
before, the outstanding stroke becomes unconfirmed and the consecutive count is raised; at the failure limit dosing
fails for good; no stroke is confirmed, and at most one new stroke is issued, by a cast that may still dose. -/
def Obligations.StrokeTimerExpires : Prop :=
  (∀ (row : StrainRow) (rate gv : Nat), 0 < row.concentration → 0 < row.viability → 0 < row.stroke →
    let one := 1000 * row.concentration * row.viability * row.stroke
    targetStrokes row rate gv * one ≤ gv * rate ∧ gv * rate < (targetStrokes row rate gv + 1) * one)
  ∧ (∀ (p : PitchPart) (limit : Nat),
    let lag := p.target - (p.confirmed + p.unconfirmed)
    let q := p.testLag limit
    q = { p with pitchLag := q.pitchLag, lagged := q.lagged }
    ∧ (p.pitchLag = false → limit < lag → q.pitchLag = true ∧ q.lagged = true)
    ∧ (p.pitchLag = false → lag ≤ limit → q = p)
    ∧ (p.pitchLag = true → q.lagged = p.lagged ∧ (q.pitchLag = true ↔ limit / 2 < lag)))
  ∧ (∀ s : State, condCause s .pitchLag = true ↔ ∃ c p, s.castMeter.record = some c ∧ c.pitch = some p
      ∧ p.pitchLag = true ∧ (c.state = .metering ∨ c.state = .paused ∨ c.state = .settling))
  ∧ (∀ (c : Cast) (p : PitchPart) (s : State), s.castMeter.record = some c → c.pitch = some p →
    p.issued + 1 < 2 ^ 64 →
    let dose := (lineRow s.tables).dose
    let drive := fun d : PointRow => ({
      kind := 0x02, dest := BitVec.ofNat 8 d.station, source := s.stationAddress, hop := 0, tag := 0
      payload := num 1 d.channel ++ num 1 0 ++ num 2 1000, check := 0 } : Frame)
    let free := fun d : PointRow => ∀ q ∈ s.loop.queue, (∃ k, q.owner = .pitchUnit k) →
      ¬(q.frame.kind = 0x02 ∧ q.frame.dest = (drive d).dest ∧ q.frame.payload.head? = (drive d).payload.head?)
    let may := (c.state = .metering ∨ c.state = .paused ∨ (c.state = .settling ∧ c.settleOver = false))
      ∧ p.outstanding = false ∧ p.issued < p.target ∧ p.dosingFailed = false ∧ p.frameQueued = false
      ∧ s.vessels.whirlpool.authority = .auto
    let becomes := fun (u : State) (q : PitchPart) =>
      { u with castMeter := { s.castMeter with record := some { c with pitch := some q } } }
    (¬may ∨ (∀ d, point? s.tables dose = some d → ¬free d) → tryIssue s = s)
    ∧ ∀ d, may → point? s.tables dose = some d → free d →
      let sent := offer (drive d) (.pitchUnit c.number) s
      let issued := { p with issued := p.issued + 1, outstanding := true, unsent := false }
      (sent.1 = .refused → tryIssue s = becomes sent.2 { p with unsent := true })
      ∧ (sent.1 = .queued → tryIssue s = becomes sent.2 { issued with frameQueued := true })
      ∧ (sent.1 = .begun → tryIssue s = becomes sent.2
          { issued with frameQueued := false, strokeTimer := some s.loopTime }))
  ∧ ∀ (c : Cast) (p : PitchPart) (start : LoopTime) (s : State), s.mode = .active → s.tells = [] →
    s.castMeter.record = some c → c.pitch = some p → p.outstanding = true → p.strokeTimer = some start →
    c.state = .opening ∨ c.state = .metering ∨ c.state = .paused ∨ c.state = .settling →
    p.unconfirmed + 1 < 2 ^ 64 → p.issued + 1 < 2 ^ 64 →
    let line := lineRow s.tables
    let passed := (s.loopTime - start).toNat
    (passed < line.strokeTimeout → exec .strokeTimerExpiry s = .next s)
    ∧ (line.strokeTimeout ≤ passed →
        ∃ t d r, exec .strokeTimerExpiry s = .next t ∧ t.works = s.works
          ∧ t.castMeter.record = some d ∧ d.number = c.number ∧ d.pitch = some r
          ∧ r.unconfirmed = p.unconfirmed + 1 ∧ r.consecutive = p.consecutive + 1 ∧ r.confirmed = p.confirmed
          ∧ r.target = p.target
          ∧ (r.dosingFailed = true ↔ p.dosingFailed = true ∨ p.consecutive + 1 = line.failureLimit)
          ∧ ((r.issued = p.issued ∧ r.outstanding = false ∧ r.strokeTimer = none)
              ∨ (r.issued = p.issued + 1 ∧ r.outstanding = true ∧ p.issued < p.target ∧ r.dosingFailed = false
                  ∧ s.vessels.whirlpool.authority = .auto)))

/-- CAST_END (R121, R122): NOT_FOUND with no open cast; in OPENING the end cause is kept for the write's completion; in
METERING or PAUSED the cast enters SETTLING with its timer started; in SETTLING or CHARGING nothing changes. The
end cause is that of the first trigger. The REPLY carries the cast number and its state after the request. -/
def Obligations.CastEndRequests : Prop :=
  ∀ (rq : Request) (s : State), Asks rq .castEnd s →
    let i := Instr.castEnd rq
    let brief := fun c : Cast => num 4 c.number ++ num 1 (castStateCode c.state)
    ((∀ c, s.castMeter.record = some c → c.state = .closed) → Answers i 22 rq .notFound [] s (taken s))
    ∧ ∀ c, s.castMeter.record = some c →
      (c.state = .settling ∨ c.state = .charging → Answers i 22 rq .ok (brief c) s (taken s))
      ∧ (c.state = .opening ∨ c.state = .metering ∨ c.state = .paused →
          ∃ t d, exec i s = .next t ∧ Replied 22 rq .ok (brief d) t ∧ t.works = (taken s).works
            ∧ t.castMeter.record = some d ∧ d.number = c.number
            ∧ d.endCause = (if c.endCause = none then some .request else c.endCause)
            ∧ (c.endCause = none → d.flags.requestEnd = true)
            ∧ (c.state = .opening → d.state = .opening)
            ∧ (c.state ≠ .opening → d.state = .settling ∧ d.settleTimer = some s.loopTime ∧ d.settleOver = false)
            ∧ d.v20 = c.v20 ∧ d.gv = c.gv ∧ t.journal = s.journal ∧ t.duty = s.duty)

/-- Records offered again (R125, R149): with a place in the write queue a kept CAST_CLOSE record joins it, its charge
joining the pending charges, and with none it stays kept. A first activation queues the TARIFF record of a valid bank,
with one block reserved for it, when no tariff is active, the journal is READY and has a place and a free block;
while one of these fails nothing happens. -/
def Obligations.KeptRecordsAreOfferedAgain : Prop :=
  ∀ s : State, s.mode = .active → s.tells = [] →
    (∀ d c part, s.castMeter.keptClose = some d → d.body = .castClose c → c.duty = some part →
      (4 ≤ s.journal.queue.length → Leaves .castCloseReoffer s s)
      ∧ (s.journal.queue.length < 4 → Leaves .castCloseReoffer s
          { s with
            castMeter := { s.castMeter with keptClose := none }
            journal := { s.journal with queue := s.journal.queue ++ [d] }
            duty := { s.duty with
              charges := s.duty.charges ++ [{ cast := c.number, dl := part.dl, cdl := part.cdl, d := part.d }] } }))
    ∧ (let ready := s.duty.tariff = .none ∧ s.journal.mount = .ready ∧ bankValid s.tables = true
          ∧ s.journal.queue.length < 4 ∧ 1 ≤ freeRoom s.journal
       (¬ready → exec .firstActivation s = .next s)
       ∧ (ready → Leaves .firstActivation s
          { s with
            duty := { s.duty with tariff := .activating, bankTouched := false }
            journal := { s.journal with
              queue := s.journal.queue ++
                [{ body := .tariff (bankImage s.tables), brew := 0, period := s.duty.account.period, skip := 0
                   placed := false }]
              reservations := s.journal.reservations + 1 } }))

/-! ### Duty -/

/-- The stages of a charge (R140 to R144): the mean gravity rounds half up; every other stage rounds down, but for the
duty, rounded half up once on the sum of the nets; the band is the first whose bound reaches the gravity, else the
last with ABOVE_BANDS; each tier's portion is the part of the quantities from the base Y to Y plus the chargeable
degree-litres that lies between the tier's bounds, the last tier having no upper one, in tier order; with the bounds
ascending the portions sum to the chargeable degree-litres, a consequence. -/
def Obligations.ChargesAreComputed : Prop :=
  (∀ v gv : Nat, (v = 0 → meanGravity v gv = 0)
    ∧ (0 < v → 2 * v * meanGravity v gv ≤ 2 * gv + v ∧ 2 * gv + v < 2 * v * (meanGravity v gv + 1))
    ∧ (gv ≤ 40000 * v → meanGravity v gv ≤ 40000))
  ∧ ∀ (t : TariffImage) (seq : Seq) (source : DutySource) (v gm base : Nat),
    let bands := t.bands.take t.bandCount
    let tiers := t.tiers.take t.tierCount
    let d := computeDuty t seq source v gm base
    bands ≠ [] → tiers ≠ [] → tiers.dropLast.Pairwise (fun x y => x.1 ≤ y.1) →
    d.dl = v * gm / 1000000 ∧ d.a = d.dl * t.allowance / 1000000 ∧ d.cdl = d.dl - d.a
      ∧ (t.allowance ≤ 100000 → 9 * d.dl ≤ 10 * d.cdl)
      ∧ (∀ i < bands.length, (∀ j < i, (bands.getD j (0, 0)).1 < gm) → gm ≤ (bands.getD i (0, 0)).1 →
          d.band = i + 1 ∧ d.rate = (bands.getD i (0, 0)).2 ∧ d.aboveBands = false)
      ∧ ((∀ b ∈ bands, b.1 < gm) →
          d.band = bands.length ∧ d.rate = (bands.getLastD (0, 0)).2 ∧ d.aboveBands = true)
      ∧ d.baseY = base
      ∧ (∀ k < tiers.length,
          let low := max base (if k = 0 then 0 else (tiers.getD (k - 1) (0, 0)).1)
          let high := if k + 1 = tiers.length then base + d.cdl else min (tiers.getD k (0, 0)).1 (base + d.cdl)
          (low < high → ∃ p ∈ d.portions, p.tier = k + 1 ∧ p.q = high - low)
            ∧ (high ≤ low → ∀ p ∈ d.portions, p.tier ≠ k + 1))
      ∧ d.portions.Pairwise (fun p q => p.tier < q.tier)
      ∧ (d.portions.map Portion.q).sum = d.cdl
      ∧ (∀ p ∈ d.portions, 0 < p.q ∧ 1 ≤ p.tier ∧ p.tier ≤ tiers.length ∧ p.gross = p.q * d.rate
          ∧ p.relief = p.gross * (tiers.getD (p.tier - 1) (0, 0)).2 / 1000000 ∧ p.net = p.gross - p.relief)
      ∧ d.n = (d.portions.map Portion.net).sum ∧ d.d = (d.n + 500) / 1000

/-- CAST_SETTLE (R155): the checks of its table in their order; accepted, the charge of the declared figures is
computed with the active tariff, the CAST_SETTLED record of the orphan joins the write queue with one block reserved,
the charge joins the pending charges and the reply is deferred. -/
def Obligations.CastSettleRequests : Prop :=
  ∀ (cast v gm : Nat) (rq : Request) (s : State), Asks rq (.castSettle cast v gm) s →
    let i := Instr.castSettle rq
    let j := s.journal
    let result : Result :=
      if j.mount ≠ .ready then .notReady
      else if (∀ o ∈ j.orphans, o.cast ≠ cast) then .notFound
      else if (∃ c ∈ s.duty.charges, c.cast = cast) then .busy
      else if s.duty.tariff ≠ .active then .notReady
      else if freeRoom j < 1 then .journalFull
      else if 4 ≤ j.queue.length then .busy
      else .ok
    (result ≠ .ok → Answers i 24 rq result [] s (taken s))
    ∧ ∀ o, result = .ok → j.orphans.find? (fun o => o.cast == cast) = some o →
      let part := computeDuty s.duty.active s.duty.activeSeq .declared v gm
        (s.duty.account.ytd + (s.duty.charges.map Charge.cdl).sum)
      Leaves i s
        { taken s with
          journal := { j with
            reservations := j.reservations + 1
            queue := j.queue ++
              [{ body := .castSettled { cast := cast, fermenter := o.fermenter, openSeq := o.tariffSeq, duty := part }
                 brew := o.brew, period := s.duty.account.period, skip := 0, placed := false }] }
          duty := { s.duty with
            charges := s.duty.charges ++ [{ cast := cast, dl := part.dl, cdl := part.cdl, d := part.d }] }
          agent := { (taken s).agent with
            deferred := s.agent.deferred ++ [{ source := rq.source, tag := rq.tag, code := 24 }] } }

/-- PERIOD_CLOSE (R153): the checks of its table in their order; accepted, the PERIOD_CLOSE record of the account joins
the empty write queue and the reply is deferred; with a valid bank under an active tariff the TARIFF record of its
image follows at once and the tariff is CHANGING. -/
def Obligations.PeriodCloseRequests : Prop :=
  ∀ (yearEnd : Bool) (rq : Request) (s : State), Asks rq (.periodClose yearEnd) s →
    let i := Instr.periodClose rq
    let j := s.journal
    let a := s.duty.account
    let result : Result :=
      if j.mount ≠ .ready then .notReady
      else if (∃ c ∈ s.castMeter.record, c.state ≠ .closed) then .busy
      else if j.queue ≠ [] ∨ s.duty.tariff = .activating ∨ s.duty.tariff = .changing ∨ s.duty.charges ≠ [] then .busy
      else if j.orphans ≠ [] then .orphans
      else if freeRoom j < 2 then .journalFull
      else .ok
    let figures : CloseBody :=
      { period := a.period, casts := a.casts, dl := a.dl, cdl := a.cdl, duty := a.duty, ytd := a.ytd
        yearEnd := yearEnd, castCount := j.castCount }
    let record : Body → Draft := fun b => { body := b, brew := 0, period := a.period, skip := 0, placed := false }
    let deferred := s.agent.deferred ++ [{ source := rq.source, tag := rq.tag, code := 25 : Deferred }]
    (result ≠ .ok → Answers i 25 rq result [] s (taken s))
    ∧ (result = .ok → bankValid s.tables = false → Leaves i s
        { taken s with
          journal := { j with reservations := j.reservations + 1, queue := [record (.periodClose figures)] }
          duty := { s.duty with closing := some { figures := figures, withTariff := false } }
          agent := { (taken s).agent with deferred := deferred } })
    ∧ (result = .ok → bankValid s.tables = true → s.duty.tariff = .active → Leaves i s
        { taken s with
          journal := { j with
            reservations := j.reservations + 2
            queue := [record (.periodClose figures), record (.tariff (bankImage s.tables))] }
          duty := { s.duty with
            tariff := .changing, bankTouched := false
            closing := some { figures := figures, withTariff := true } }
          agent := { (taken s).agent with deferred := deferred } })

/-! ### The journal -/

/-- A write goes through its stages (R161, R163). With the store free, the journal READY and not failed, no write
protect and no power-fail warning, the head record begins: the head is raised and the reservation consumed. The erase
leaves all ones; the program leaves the record. A read-back that differs makes the position bad: below three in a row
and with room the write moves on with its skip count raised; at the third, or without room, the queue fails. The
write-protect input holds a write that has not begun, and a read that waited behind it takes the free store (R166).
The model's choices: the withdrawal changes the pin alone, and the head record begins by JOURNAL_WRITE_BEGIN, a step
of its own (log 6). A CAST_CLOSE under the power-fail warning and the beginning of a RELEASE stand aside here. -/
def Obligations.WritesGoThroughTheirStages : Prop :=
  ∀ s : State, s.mode = .active → s.tells = [] →
    let j := s.journal
    let at_ := blockOf (j.head - 1)
    Leaves .journalProtectAsserted s
      { s with
        pins := { s.pins with protect := true }
        journal := { j with op := if j.op = .free ∧ j.reads ≠ [] then .reading else j.op } }
    ∧ Leaves .journalProtectWithdrawn s { s with pins := { s.pins with protect := false } }
    ∧ (s.pins.protect = true ∨ j.op ≠ .free ∨ j.mount ≠ .ready ∨ j.failed = true ∨ j.queue = [] →
        Leaves .journalWriteBegin s s)
    ∧ (∀ d rest, s.pins.protect = false → s.pins.powerFail = false → j.op = .free → j.mount = .ready →
        j.failed = false → j.queue = d :: rest → d.placed = false → d.body.isRelease = false →
        Leaves .journalWriteBegin s
          { s with journal := { j with
              queue := { d with placed := true } :: rest, reservations := j.reservations - 1, head := j.head + 1
              op := .erasing } })
    ∧ (j.op = .erasing → Leaves .journalEraseDone s
        { s with store := storeWrite at_ erasedBlock s.store, journal := { j with op := .programming } })
    ∧ (∀ d rest, j.op = .programming → j.queue = d :: rest → Leaves .journalProgramDone s
        { s with store := storeWrite at_ (blockBytes (j.head - 1) d) s.store, journal := { j with op := .verifying } })
    ∧ ∀ d rest a, j.op = .verifying → j.queue = d :: rest →
        (readBlock at_ a s.store).1 ≠ blockBytes (j.head - 1) d →
        ∃ t, exec (.journalReadbackDone a) s = .next t ∧ t.store = (readBlock at_ a s.store).2
          ∧ t.journal.consecutive = j.consecutive + 1
          ∧ (j.consecutive + 1 < 3 → freeRoom j ≠ 0 → t.journal = { j with
              consecutive := j.consecutive + 1, head := j.head + 1, op := .erasing
              queue := { d with skip := min 255 (d.skip + 1) } :: rest })
          ∧ (3 ≤ j.consecutive + 1 ∨ freeRoom j = 0 →
              t.journal.failed = true ∧ t.journal.queue = j.queue ∧ t.journal.head = j.head
                ∧ (t.journal.op = .free ∨ t.journal.op = .reading))

/-- A read-back that matches completes the record, which leaves the queue, and its block acts: the bank's image becomes
the Active Tariff and the bank is emptied unless touched (R149, R154); a closed period starts the next (R154); a
settlement takes the first pending charge into the account and clears its orphan (R151, R156); a release moves the
tail (R165); an opened cast goes to METERING, PAUSED, SETTLING or CHARGING (R115); a closed cast is CLOSED and its
charge taken (R126, R151). -/
def Obligations.CompletedRecordsTakeEffect : Prop :=
  ∀ (d : Draft) (rest : List Draft) (a : StoreAnswer) (s : State), s.mode = .active → s.tells = [] →
    let j := s.journal
    let q := j.head - 1
    let u := s.duty
    j.op = .verifying → j.queue = d :: rest → (readBlock (blockOf q) a s.store).1 = blockBytes q d →
    ∃ t, exec (.journalReadbackDone a) s = .next t ∧ t.store = (readBlock (blockOf q) a s.store).2
      ∧ t.journal.consecutive = 0 ∧ t.journal.head = j.head ∧ (t.journal.op = .free ∨ t.journal.op = .reading)
      ∧ ((∀ b, d.body ≠ .castOpen b) → t.journal.queue = rest)
      ∧ (∀ image, d.body = .tariff image →
          t.duty.tariff = .active ∧ t.duty.active = image ∧ t.duty.activeSeq = q ∧ t.duty.account = u.account
            ∧ t.tables = (if u.bankTouched then s.tables else { s.tables with tariff := zeroTable 13 5 }))
      ∧ (∀ b, d.body = .periodClose b →
          t.duty.account = { period := if u.account.period = 65535 then 1 else u.account.period + 1, casts := 0, dl := 0
                             cdl := 0, duty := 0, ytd := if b.yearEnd then 0 else u.account.ytd }
            ∧ t.journal.lastClose = some { seq := q, period := b.period, ytd := b.ytd, yearEnd := b.yearEnd })
      ∧ (∀ b c more, d.body = .castSettled b → u.charges = c :: more →
          t.duty.account = u.account.take c.dl c.cdl c.d ∧ t.duty.charges = more
            ∧ t.journal.orphans = j.orphans.filter fun o => o.cast != b.cast)
      ∧ (∀ b, d.body = .release b → t.journal.tail = b.releasedTo ∧ t.duty = u)
      ∧ (∀ b c, d.body = .castOpen b → s.castMeter.record = some c → c.state = .opening →
          ∃ e, t.castMeter.record = some e ∧ e.number = c.number
            ∧ (c.flags.interrupted = true → e.state = .charging)
            ∧ (c.flags.interrupted = false → c.endCause ≠ none → e.state = .settling)
            ∧ (c.flags.interrupted = false → c.endCause = none →
                ((∃ p, pauseHolds s c p = true) → e.state = .paused)
                ∧ ((∀ p, pauseHolds s c p = false) → e.state = .metering)))
      ∧ (∀ b c k more, d.body = .castClose b → s.castMeter.record = some c → u.charges = k :: more →
          (∃ e, t.castMeter.record = some e ∧ e.number = c.number ∧ e.state = .closed)
            ∧ t.duty.account = u.account.take k.dl k.cdl k.d ∧ t.duty.charges = more
            ∧ ∀ w, brew? s c.brew = some w → w.state = .casting →
                t.vessels.whirlpool.occupancy = .empty ∧ t.vessels.whirlpool.occupant = none
                  ∧ t.seqs.whirlpool.state = .idle
                  ∧ ∃ w', brew? t c.brew = some w' ∧ w'.state = .cast ∧ w'.occupied = [])

/-- JOURNAL_READ and its block reads (R166): NOT_READY before READY, RANGE unless both ends are unreleased; else the
reply is deferred and the read waits, taking a free store at once unless a waiting record goes first. Each block read
adds its entry; the last sends the deferred reply and frees the store. The data of a NOT_READY or RANGE reply (the page
and a count of 1, log 15), the layout of an entry (log 16) and whose turn it is at a store that has served nothing
(log 21) are the model's. -/
def Obligations.JournalReadRequests : Prop :=
  (∀ (seq : Seq) (count page : Nat) (rq : Request) (s : State), Asks rq (.journalRead seq count page) s →
    let i := Instr.journalRead rq
    let j := s.journal
    let job : ReadJob := { seq := seq, count := count, page := page, done := 0, entries := [] }
    let inside := isUnreleased j seq = true ∧ isUnreleased j (seq + BitVec.ofNat 32 count - 1) = true
    let bare := num 1 page ++ num 1 1
    (j.mount ≠ .ready → Answers i 27 rq .notReady bare s (taken s))
    ∧ (j.mount = .ready → ¬inside → Answers i 27 rq .range bare s (taken s))
    ∧ (j.mount = .ready → inside → Leaves i s
        { taken s with
          journal := { j with
            reads := j.reads ++ [job]
            op := if j.op = .free ∧ ¬(j.turn = .record ∧ canBeginWrite s = true) then .reading else j.op }
          agent := { (taken s).agent with
            deferred := s.agent.deferred ++ [{ source := rq.source, tag := rq.tag, code := 27 }] } }))
  ∧ ∀ (job : ReadJob) (rest : List ReadJob) (a : StoreAnswer) (s : State), s.mode = .active → s.tells = [] →
    let j := s.journal
    j.op = .reading → j.reads = job :: rest →
    let q := job.seq + BitVec.ofNat 32 job.done
    let block := readBlock (blockOf q) a s.store
    let entries := job.entries ++ readEntry q block.1
    (job.done + 1 < job.count → Leaves (.journalReadBlockDone a) s
      { s with
        store := block.2
        journal := { j with reads := { job with done := job.done + 1, entries := entries } :: rest } })
    ∧ (job.count ≤ job.done + 1 → ∀ r, s.agent.deferred.find? (fun r => r.code == 27) = some r →
        (s.loop.port = .idle → s.loop.transit = [] ∧ s.loop.queue = []) →
        ∃ t, exec (.journalReadBlockDone a) s = .next t ∧ t.store = block.2 ∧ t.journal.reads = rest
          ∧ t.agent.deferred = s.agent.deferred.eraseP (fun r => r.code == 27)
          ∧ (rest = [] → t.journal.op = .free) ∧ t.journal.queue = j.queue
          ∧ Sent (replyFrame s r.source r.tag 27 .ok (pageOf job.page (num 1 job.count ++ entries))) s t)

/-- The mount (R157, R167, R168): a block read before the last is classified and kept; the last makes the journal
READY with an empty queue, no reservation and no failure, and what the good records give. The head is one past the
latest, the tail the latest RELEASE's; the records at unreleased positions, in sequence order, give the rest: last
close is the last PERIOD_CLOSE's or that of the latest RELEASE; the cast count is the greatest cast number; the
account is the base's with the charges later than it; the tariff is the last TARIFF's or the latest RELEASE's; the
orphans are the casts opened and neither closed nor settled, the four oldest listed; a bad block at an unreleased
position that the next good record has not skipped is damage. With no good record head and tail are 0 and the account
starts afresh. -/
def Obligations.MountReadsEveryBlock : Prop :=
  (∀ (r : Record) (good : List Record), r ∈ good → (∀ q ∈ good, q ≠ r → laterSeq r.seq q.seq = true) →
    (mountPositions good).head = r.seq + 1)
  ∧ (∀ good : List Record, (∀ r ∈ good, r.release? = none) → (mountPositions good).tail = 0)
  ∧ (∀ (r : Record) (b : ReleaseBody) (good : List Record), r ∈ good → r.release? = some b →
      (∀ q ∈ good, q ≠ r → q.release? ≠ none → laterSeq r.seq q.seq = true) →
      (mountPositions good).tail = b.releasedTo)
  ∧ (∀ good : List Record,
    let m := mountPositions good
    let place := fun r : Record => (r.seq - m.tail).toNat
    let period := fun r : Record => ∃ b, r.body = .periodClose b
    let numbered := fun (r : Record) (n : Nat) => (∃ b, r.body = .castOpen b ∧ b.cast = n)
      ∨ (∃ k, r.body = .castClose k ∧ k.number = n) ∨ (∃ b, r.body = .castSettled b ∧ b.cast = n)
      ∨ (∃ b, r.body = .periodClose b ∧ b.castCount = n)
    (∀ r, r ∈ m.records ↔ r ∈ good ∧ place r < (m.head - m.tail).toNat)
    ∧ m.records.Pairwise (fun a b => place a ≤ place b)
    ∧ (∀ r b, LastOf m.tail period m.records r → r.body = .periodClose b →
        m.lastClose = some { seq := r.seq, period := b.period, ytd := b.ytd, yearEnd := b.yearEnd })
    ∧ ((∀ r ∈ m.records, ¬period r) →
        (∀ r b, LatestRelease good r b → m.lastClose = some b.close)
        ∧ ((∀ r ∈ good, r.release? = none) → m.lastClose = none))
    ∧ (∀ r ∈ m.records, ∀ n, numbered r n → n ≤ m.castCount)
    ∧ (∀ r b, LatestRelease good r b → b.castCount ≤ m.castCount)
    ∧ (m.castCount ≠ 0 → (∃ r ∈ m.records, numbered r m.castCount)
        ∨ ∃ r ∈ good, ∃ b, r.body = .release b ∧ b.castCount = m.castCount)
    ∧ ∀ base : Option LastClose,
      ((∃ r b, LastOf m.tail period m.records r ∧ r.body = .periodClose b
          ∧ ((∀ q ∈ good, q.release? = none) ∨ ∃ q k, LatestRelease good q k ∧ laterSeq q.seq r.seq = false)
          ∧ base = some { seq := r.seq, period := b.period, ytd := b.ytd, yearEnd := b.yearEnd })
        ∨ (∃ r b, LatestRelease good r b ∧ (∀ q ∈ m.records, period q → laterSeq r.seq q.seq = true)
          ∧ base = some b.close)
        ∨ ((∀ r ∈ good, r.release? = none) ∧ (∀ r ∈ m.records, ¬period r) ∧ base = none)) →
      let charges := (m.records.filter fun r => base.all fun k => laterSeq r.seq k.seq).filterMap Record.charge?
      let from_ := match base with
        | some k => if k.yearEnd then 0 else k.ytd
        | none => 0
      charges.length < 2 ^ 32 → (charges.map DutyPart.dl).sum < 2 ^ 64 → (charges.map DutyPart.d).sum < 2 ^ 64 →
      from_ + (charges.map DutyPart.cdl).sum < 2 ^ 64 →
      m.account =
        { period := match base with
            | some k => if k.period = 65535 then 1 else k.period + 1
            | none => 1
          casts := charges.length, dl := (charges.map DutyPart.dl).sum, cdl := (charges.map DutyPart.cdl).sum
          duty := (charges.map DutyPart.d).sum, ytd := from_ + (charges.map DutyPart.cdl).sum })
  ∧ ∀ (a : StoreAnswer) (s : State), s.mode = .active → s.tells = [] → s.journal.mount = .mounting →
    let j := s.journal
    let block := readBlock j.mountBlock a s.store
    let kind := classifyBlock j.mountBlock block.1
    let good := match kind with
      | .good r => j.mountGood ++ [r]
      | .erased => j.mountGood
      | .bad => j.mountGood
    let bad := if kind = .bad then j.mountBad ++ [j.mountBlock] else j.mountBad
    (j.mountBlock < 4095 → Leaves (.mountBlockReadDone a) s
      { s with
        store := block.2
        journal := { j with mountBlock := j.mountBlock + 1, mountGood := good, mountBad := bad } })
    ∧ (4095 ≤ j.mountBlock →
        ∃ t, exec (.mountBlockReadDone a) s = .next t ∧ t.store = block.2
          ∧ (let k := t.journal
             let m := mountPositions good
             k.mount = .ready ∧ k.queue = [] ∧ k.reservations = 0 ∧ k.consecutive = 0 ∧ k.failed = false
              ∧ k.head = m.head ∧ k.tail = m.tail ∧ k.castCount = m.castCount ∧ k.lastClose = m.lastClose
              ∧ k.orphans.length ≤ 4 ∧ t.duty.account = m.account
              ∧ (∀ image seq, m.tariff = some (image, seq) →
                  t.duty.tariff = .active ∧ t.duty.active = image ∧ t.duty.activeSeq = seq)
              ∧ (∀ r image, LastOf m.tail (fun q => ∃ i, q.body = .tariff i) m.records r → r.body = .tariff image →
                  t.duty.tariff = .active ∧ t.duty.active = image ∧ t.duty.activeSeq = r.seq)
              ∧ ((∀ r ∈ m.records, r.tariff? = none) →
                  (∀ r b q, LatestRelease good r b → b.tariffSeq = some q →
                    t.duty.tariff = .active ∧ t.duty.active = b.tariff ∧ t.duty.activeSeq = q)
                  ∧ ((∀ r ∈ good, r.release? = none) → t.duty.tariff = s.duty.tariff))
              ∧ (m.records.Pairwise (fun a b => ∀ x y, a.body = .castOpen x → b.body = .castOpen y → x.cast ≠ y.cast) →
                  let opened := m.records.filterMap fun r =>
                    match r.body with
                    | .castOpen b =>
                      if m.records.any fun q => q.ends b.cast then none
                      else some { cast := b.cast, brew := r.brew, fermenter := b.fermenter, tariffSeq := b.tariffSeq }
                    | .tariff _ | .castClose _ | .castSettled _ | .periodClose _ | .release _ => none
                  k.orphans = opened.take 4 ∧ k.unlisted = min 65535 (opened.length - 4)
                    ∧ (4 < opened.length → Cond.orphanOverflow ∈ t.agent.latched))
              ∧ (good.Pairwise (fun a b => a.seq ≠ b.seq) → (∀ b ∈ bad, b < 4096) →
                  (m.head - m.tail).toNat ≤ 4096 →
                  (Cond.journalDamaged ∈ t.agent.latched ↔ Cond.journalDamaged ∈ s.agent.latched
                    ∨ ∃ b ∈ bad, ∃ p : Seq, blockOf p = b ∧ (p - m.tail).toNat < (m.head - m.tail).toNat
                      ∧ ∀ r ∈ m.records, (p - m.tail).toNat < (r.seq - m.tail).toNat →
                        (∀ q ∈ m.records, (p - m.tail).toNat < (q.seq - m.tail).toNat →
                          (r.seq - m.tail).toNat ≤ (q.seq - m.tail).toNat) →
                        r.skip < (r.seq - p).toNat))
              ∧ (good = [] → k.head = 0 ∧ k.tail = 0 ∧ k.castCount = 0 ∧ k.lastClose = none ∧ k.orphans = []
                  ∧ t.duty.tariff = s.duty.tariff
                  ∧ t.duty.account = { period := 1, casts := 0, dl := 0, cdl := 0, duty := 0, ytd := 0 }))
          ∧ t.works = { s.works with store := block.2 })

/-- JOURNAL_RELEASE and JOURNAL_RETRY (R162, R165): a release's checks in the order of its table; accepted, its RELEASE
record joins the write queue with one block reserved and the reply is deferred. A retry clears the failure, and the
write of the head begins again where no hold applies; with no failure it changes nothing. A retry that finds no room
fails again: JOURNAL_FAILED has left and joins once more, acknowledged by no earlier STATUS_READ (R162, R177, R178). -/
def Obligations.JournalReleaseAndRetryRequests : Prop :=
  (∀ (q : Seq) (rq : Request) (s : State), Asks rq (.journalRelease q) s →
    let i := Instr.journalRelease rq
    let j := s.journal
    let result : Result :=
      if j.mount ≠ .ready then .notReady
      else if ¬(∃ c, j.lastClose = some c ∧ laterSeq q j.tail = true ∧ laterSeq q (c.seq + 1) = false) then .range
      else if j.orphans ≠ [] ∨ 0 < j.unlisted then .orphans
      else if ∃ d ∈ j.queue, d.body.isRelease = true then .busy
      else if freeRoom j < 1 then .journalFull
      else if 4 ≤ j.queue.length then .busy
      else .ok
    (result ≠ .ok → Answers i 28 rq result [] s (taken s))
    ∧ (result = .ok → ∃ d b, d.body = .release b ∧ b.releasedTo = q ∧ Leaves i s
        { taken s with
          journal := { j with reservations := j.reservations + 1, queue := j.queue ++ [d] }
          agent := { (taken s).agent with
            deferred := s.agent.deferred ++ [{ source := rq.source, tag := rq.tag, code := 28 }] } }))
  ∧ ∀ (rq : Request) (s : State), Asks rq .journalRetry s →
    let i := Instr.journalRetry rq
    let j := s.journal
    (j.mount ≠ .ready → Answers i 29 rq .notReady [] s (taken s))
    ∧ (j.mount = .ready → j.failed = false → Answers i 29 rq .ok [] s (taken s))
    ∧ (j.mount = .ready → j.failed = true → s.pins.protect = true → Answers i 29 rq .ok [] s
        { taken s with journal := { j with failed := false, consecutive := 0 } })
    ∧ ∀ d rest, j.mount = .ready → j.failed = true → s.pins.protect = false → s.pins.powerFail = false →
        j.op = .free → j.queue = d :: rest → d.placed = true →
        (d.body.isRelease = false → freeRoom j ≠ 0 → Answers i 29 rq .ok [] s
          { taken s with journal := { j with
              failed := false, consecutive := 0, head := j.head + 1, op := .erasing } })
        ∧ (freeRoom j = 0 → ∃ t, exec i s = .next t ∧ Replied 29 rq .ok [] t ∧ t.works = (taken s).works
            ∧ t.journal.failed = true ∧ t.journal.consecutive = 0 ∧ t.journal.queue = j.queue
            ∧ t.journal.head = j.head ∧ .journalFailed ∈ t.agent.conditions ∧ .journalFailed ∉ t.agent.acked)

/-! ### The Management Agent -/

/-- STATUS_READ and CLEAR_CONDITIONS, in a safe part whose condition set is the set of causes that hold, and a
condition that joins (R177 to R179). The status is that of the moment the request is taken; page 0, once the insertion
queue takes it, makes the acknowledged and the reported set equal to the condition set and releases the alert line;
any other page, or a refused one, adds nothing to either. A clear takes the named latched conditions out of all three
sets, and the frame-error count with FRAME_ERRORS. A condition that joins unacknowledged and unreported has an
ATTENTION offered. -/
def Obligations.StatusAndConditionRequests : Prop :=
  (∀ (rq : Request) (s : State), Safe s → (∀ k, k ∈ s.agent.conditions ↔ condCause s k = true) →
    let a := s.agent
    (∀ page, Asks rq (.statusRead page) s →
      ∃ t, exec (.statusRead rq) s = .next t ∧ t.rest = (taken s).rest
        ∧ Sent (replyFrame s rq.source rq.tag 1 .ok (pageOf page (statusData s))) s t
        ∧ (s.loop.queue.length < 32 → t.agent.conditions = a.conditions)
        ∧ (page = 0 → s.loop.queue.length < 32 →
            t.agent.acked = a.conditions ∧ t.agent.reported = a.conditions ∧ alertAsserted t = false)
        ∧ (page ≠ 0 ∨ 32 ≤ s.loop.queue.length → t.agent.acked = a.acked.filter a.conditions.contains
            ∧ t.agent.reported = a.reported.filter a.conditions.contains))
    ∧ ∀ set, Asks rq (.clearConditions set) s →
      let stay := fun c : Cond => !set.contains c
      let left := a.conditions.filter stay
      ∃ t, exec (.clearConditions rq) s = .next t
        ∧ t.rest = ({ taken s with
            loop := { s.loop with frameErrors := if .frameErrors ∈ set then 0 else s.loop.frameErrors }
            agent := { (taken s).agent with latched := a.latched.filter stay } } : State).rest
        ∧ Sent (replyFrame s rq.source rq.tag 2 .ok (condMask left)) s t
        ∧ (s.loop.queue.length < 32 → t.agent.conditions = left ∧ t.agent.acked = a.acked.filter left.contains
            ∧ t.agent.reported = a.reported.filter left.contains))
  ∧ ∀ (c : Cond) (s : State), (s.loop.port = .idle → s.loop.transit = [] ∧ s.loop.queue = []) →
    let a := s.agent
    let set := insertCond c a.conditions
    let t := joinCond c s
    t.agent.conditions = set
    ∧ (c ∈ a.acked ∨ c ∈ a.reported ∨ a.config.supervisor = 0 → t = { s with agent := { a with conditions := set } })
    ∧ (c ∉ a.acked → c ∉ a.reported → a.config.supervisor ≠ 0 →
        Sent (reportFrame s 1 (condMask set)) s t
        ∧ (s.loop.queue.length < 32 → ∀ k ∈ set, k ∈ t.agent.reported)
        ∧ (32 ≤ s.loop.queue.length → t.agent.reported = a.reported))

/-- The table window (R174, R176) and PART_CONFIG (R183). A window places both pointers at its start and clears the
kept requests. A pointer walks its cells row by row, or field by field, and from the last returns to the first. A
TABLE_READ with no window is out of RANGE; a repeat is answered with the kept REPLY; any other reads its cells from
the read pointer on, moves it past them, and is kept. That its REPLY is the list of the cells with its length byte, and
then the row and field of the first, is the model's deduction (log 15). -/
def Obligations.TableWindowRequests : Prop :=
  (∀ (w : Window) (n : Nat), w.ok = true →
    let rows := w.lastRow - w.firstRow + 1
    let fields := w.lastField - w.firstField + 1
    let p := w.next^[n] ⟨w.firstRow, w.firstField⟩
    (w.fieldMajor = false → p = ⟨w.firstRow + n / fields % rows, w.firstField + n % fields⟩)
    ∧ (w.fieldMajor = true → p = ⟨w.firstRow + n % rows, w.firstField + n / rows % fields⟩))
  ∧ ∀ (rq : Request) (s : State),
    let a := (taken s).agent
    (∀ w, Asks rq (.tableWindow w) s →
      Answers (.tableWindow rq) 3 rq .ok [] s
        { taken s with agent := { a with
            window := some w, keptWrite := none, keptRead := none
            writePtr := ⟨w.firstRow, w.firstField⟩, readPtr := ⟨w.firstRow, w.firstField⟩ } })
    ∧ (∀ c, Asks rq (.partConfig c) s →
      Answers (.partConfig rq) 6 rq .ok (num 1 c.supervisor ++ num 1 c.fairness ++ num 2 c.interval) s
        { taken s with agent := { a with config := c } })
    ∧ ∀ count, Asks rq (.tableRead count) s →
      (a.window = none → Answers (.tableRead rq) 5 rq .range [] s (taken s))
      ∧ ∀ w, a.window = some w →
        (∀ k, a.keptRead = some k → k.request = rq → Answers (.tableRead rq) 5 rq k.result k.data s (taken s))
        ∧ ((∀ k, a.keptRead = some k → k.request ≠ rq) →
          let place := fun i => w.next^[i] a.readPtr
          let cells := (List.range count).map fun i => readCell s w.table (place i).row (place i).field
          let data := listField (fun c : Cell => num 4 c.toNat) cells ++ num 1 a.readPtr.row ++ num 1 a.readPtr.field
          Answers (.tableRead rq) 5 rq .ok data s
            { taken s with agent := { a with
                readPtr := place count, keptRead := some { request := rq, result := .ok, data := data } } })

/-- TABLE_WRITE (R175, R176). With no window it is out of RANGE; a repeat is answered with the kept REPLY. Any other
moves the write pointer past its cells, is kept, and answers how many cells were written and the first that was not; a
cell not written sets TABLE_REJECT. Of a write of one cell, to a table of its full size: the first case that applies
says what becomes of it. A cell not written leaves every cell as it was, but for the VALID of a row that fails its
checks. A cell written reads back, with VALID cleared unless it is VALID; every other cell but a VALID stays. That a
VALID written 1 to a valid row runs its checks again, and leaves a row that fails them invalid, is the model's
deduction (log 18). -/
def Obligations.TableWriteRequests : Prop :=
  (∀ (w : Window) (m : WriteTally) (c : Cell) (s : State),
    let p := s.agent.writePtr
    let n := writeAtPointer w (m, s) c
    n.2.agent.writePtr = w.next p
    ∧ ∀ why, (writeCell w.table p.row p.field c s).1 = some why → n.1.written = m.written
        ∧ n.1.first = some (m.first.getD { place := m.met + 1, at_ := p, reason := why })
        ∧ .tableReject ∈ n.2.agent.latched)
  ∧ ∀ (cells : List Cell) (rq : Request) (s : State), Asks rq (.tableWrite cells) s →
    let i := Instr.tableWrite rq
    let a := s.agent
    (a.window = none → Answers i 4 rq .range [] s (taken s))
    ∧ ∀ w, a.window = some w →
      (∀ k, a.keptWrite = some k → k.request = rq → Answers i 4 rq k.result k.data s (taken s))
      ∧ ((∀ k, a.keptWrite = some k → k.request ≠ rq) →
        ∃ (t : State) (written : Nat) (first : Option Rejection),
          let data := num 1 written
            ++ optional (fun r : Rejection =>
                num 1 r.place ++ num 1 r.at_.row ++ num 1 r.at_.field ++ num 1 (cellReasonCode r.reason)) first
          exec i s = .next t ∧ Replied 4 rq .ok data t
          ∧ ({ t with tables := s.tables, points := s.points, agent := s.agent } : State).ruled = s.ruled
          ∧ t.agent.writePtr = w.next^[cells.length] a.writePtr ∧ t.agent.readPtr = a.readPtr
          ∧ t.agent.window = some w ∧ t.agent.keptRead = a.keptRead
          ∧ t.agent.keptWrite = some { request := rq, result := .ok, data := data }
          ∧ written ≤ cells.length ∧ (first = none ↔ written = cells.length)
          ∧ (∀ r, first = some r → 1 ≤ r.place ∧ r.place ≤ cells.length ∧ r.at_ = w.next^[r.place - 1] a.writePtr)
          ∧ ∀ c, cells = [c] →
            let p := a.writePtr
            let valid := validField w.table
            let why : Option CellReason :=
              if w.table = 9 then some .readOnly
              else if rowInUse s w.table p.row = true then some .inUse
              else if inRange w.table p.row p.field c = false then some .range
              else if p.field = valid ∧ c = 1 ∧ rowChecks s w.table p.row = false then some .invalid
              else none
            first = why.map (fun r => { place := 1, at_ := p, reason := r })
            ∧ (why = some .readOnly ∨ why = some .inUse ∨ why = some .range → t.tables = s.tables)
            ∧ (w.table ≤ 8 → p.row < tableRows w.table → p.field < tableFields w.table →
                (s.tables.get w.table).length = tableRows w.table →
                (∀ r ∈ s.tables.get w.table, r.length = tableFields w.table) →
                readCell s w.table p.row valid = 0 ∨ readCell s w.table p.row valid = 1 →
                (why = some .invalid → readCell t w.table p.row valid = 0)
                ∧ (why = none → readCell t w.table p.row p.field = c
                    ∧ (p.field ≠ valid → readCell t w.table p.row valid = 0))
                ∧ ∀ n row field, n ≤ 8 → field ≠ validField n → (n, row, field) ≠ (w.table, p.row, p.field) →
                    readCell t n row field = readCell s n row field))

/-- The two resets that a request asks for, and the requests refused whole (R171, R184). RESET(FULL) is BUSY while a
cast is open or a journal write is in progress; else it is the very full reset of power-on, with no REPLY.
RESET(VESSELS) halts every sequencer that is not IDLE, empties every holding slot and takes an open cast that meters
to SETTLING. Parameters that do not fit their code are answered BAD_REQUEST, and so is an unknown code; nothing else
changes. That a BAD_REQUEST reply carries no data is the model's deduction (log 15) for the paged requests (codes 1, 12,
23 and 27), whose replies R173 has carry a page number and a page count. -/
def Obligations.ResetAndRefusedRequests : Prop :=
  (∀ (rq : Request) (pins : Byte) (s : State), Asks rq (.reset false) s →
    let busy := (∃ c, s.castMeter.record = some c ∧ c.state ≠ .closed) ∨ s.journal.op = .erasing
      ∨ s.journal.op = .programming ∨ s.journal.op = .verifying
    (busy → Answers (.resetFull rq pins) 7 rq .busy [] s (taken s))
    ∧ (¬busy → ∃ t, exec (.resetFull rq pins) s = .next t ∧ exec (.fullReset false pins) s = .next t))
  ∧ (∀ (rq : Request) (s : State), Asks rq (.reset true) s →
    ∃ t, exec (.resetVessels rq) s = .next t ∧ Replied 7 rq .ok [] t ∧ t.ruled = (taken s).ruled
      ∧ (∀ v, (t.seqs.get v).state = (if (s.seqs.get v).state = .idle then .idle else .halted)
          ∧ (t.vessels.get v).occupant = (s.vessels.get v).occupant
          ∧ (t.vessels.get v).occupancy = (s.vessels.get v).occupancy)
      ∧ (∀ n < 4, slotHold t n = none)
      ∧ (s.castMeter.record = none → t.castMeter.record = none)
      ∧ (∀ c, s.castMeter.record = some c → ∃ d, t.castMeter.record = some d ∧ d.number = c.number
          ∧ (c.state = .metering ∨ c.state = .paused → d.state = .settling ∧ d.settleTimer = some s.loopTime
              ∧ (c.endCause = none → d.endCause = some .vesselReset))
          ∧ (c.state ≠ .metering → c.state ≠ .paused → d.state = c.state))
      ∧ (∀ n b, brew? s n = some b → ∃ d, brew? t n = some d ∧ d.state = b.state)
      ∧ t.duty = s.duty ∧ t.journal = s.journal)
  ∧ (∀ (q : Queued) (s : State), Takes q s →
    let code := (q.payload.headD 0).toNat
    let rq : Request := { source := q.source, tag := q.tag, params := q.payload.tail }
    1 ≤ code → code ≤ 29 → parseReq s.stationAddress code rq.params = none →
      Answers (requestCommand s.stationAddress q) code rq .badRequest [] s (taken s))
  ∧ ∀ (source tag : Byte) (payload : List Byte) (s : State),
    Takes { source := source, tag := tag, payload := payload } s →
    (∀ c, payload.head? = some c → c.toNat = 0 ∨ 29 < c.toNat) →
    ∃ t, exec (.unknownRequestCode source tag payload) s = .next t ∧ t.rest = (taken s).rest
      ∧ (∀ c, payload.head? = some c → Sent (replyFrame s source tag c .badRequest []) s t)

/-- Events and their reports (R180 to R182). An event joins the tail of the event queue with its loop time, and
shedding turns on at 48 entries; a ROUTINE event under shedding is lost with EVENT_SHED, and any event at 64 with
EVENT_OVERFLOW. At the report timer's expiry, and not before, the timer restarts with the report interval; an
ATTENTION is offered first if a condition is in neither set; then, with a supervisor, an event and a place, one frame
of up to seven events leaves, and shedding turns off at 16. That a ROUTINE event lost under shedding at 64 entries
sets both conditions is the model's choice (log 17). -/
def Obligations.EventsAreQueuedAndReported : Prop :=
  (∀ (kind : EventKind) (subject : Subject) (brew : Option Nat) (arg : EventArg) (s : State),
    let a := s.agent
    let t := raise kind subject brew arg s
    let event : Event := { time := s.loopTime, kind := kind, subject := subject, brew := brew, arg := arg }
    let lost := 64 ≤ a.events.length ∨ (a.shedding = true ∧ isAlarm kind = false)
    (¬lost → t = { s with agent := { a with
        events := a.events ++ [event], shedding := a.shedding || decide (48 ≤ a.events.length + 1) } })
    ∧ (lost → t = { s with agent := { a with latched := t.agent.latched } }
        ∧ (64 ≤ a.events.length → .eventOverflow ∈ t.agent.latched)
        ∧ (a.shedding = true → isAlarm kind = false → .eventShed ∈ t.agent.latched)))
  ∧ ∀ s : State, s.mode = .active → s.tells = [] → (s.loop.port = .idle → s.loop.transit = [] ∧ s.loop.queue = []) →
    let a := s.agent
    let i := Instr.reportTimerExpiry
    let restarted := { s with agent := { a with reportTimer := some s.loopTime, reportLimit := a.config.interval } }
    let fresh := ∃ c ∈ a.conditions, c ∉ a.acked ∧ c ∉ a.reported
    let attention := reportFrame s 1 (condMask a.conditions)
    let events := reportFrame s 2 (listField eventBytes (a.events.take 7))
    let rest := a.events.drop 7
    let reported := { s with agent := { a with
      reportTimer := some s.loopTime, reportLimit := a.config.interval, events := rest
      shedding := a.shedding && decide (16 < rest.length) } }
    (∀ start, a.reportTimer = some start → (s.loopTime - start).toNat < a.reportLimit → exec i s = .next s)
    ∧ ∀ start, a.reportTimer = some start → a.reportLimit ≤ (s.loopTime - start).toNat →
      (a.config.supervisor = 0 ∨ 32 ≤ s.loop.queue.length ∨ (¬fresh ∧ a.events = []) → Leaves i s restarted)
      ∧ (a.config.supervisor ≠ 0 → fresh → a.events = [] ∨ 31 ≤ s.loop.queue.length → s.loop.queue.length < 32 →
          s.loop.port ≠ .idle → ∃ t, exec i s = .next t ∧ t.rest = restarted.rest ∧ Sent attention s t)
      ∧ (a.config.supervisor ≠ 0 → ¬fresh → a.events ≠ [] → s.loop.queue.length < 32 →
          ∃ t, exec i s = .next t ∧ t.rest = reported.rest ∧ Sent events s t)
      ∧ (a.config.supervisor ≠ 0 → fresh → a.events ≠ [] → s.loop.queue.length < 31 → s.loop.port ≠ .idle →
          ∃ t more, exec i s = .next t ∧ t.rest = reported.rest
            ∧ t.loop.queue = s.loop.queue ++ { frame := attention.sealed, entry := s.loopTime, owner := .agent }
                :: { frame := events.sealed, entry := s.loopTime, owner := .agent } :: more)
end

