-- ==== Sys2Proof/Laws/State.lean ====
section
/-! SUPPORT. The field laws: what each update of one record does to each field of the state, all true by
definition, so that no proof unfolds an update. -/

namespace Sys2Proof.Machine

/-! ### The entries of the four vessels -/

@[simp] theorem PerVessel.get_set_same {α : Type} (p : PerVessel α) (v : Vessel) (a : α) :
    (p.set v a).get v = a := by
  cases v <;> rfl

theorem PerVessel.get_set_other {α : Type} (p : PerVessel α) {v w : Vessel} (a : α) (h : w ≠ v) :
    (p.set v a).get w = p.get w := by
  cases v <;> cases w <;> first | rfl | exact absurd rfl h

theorem PerVessel.get_set {α : Type} (p : PerVessel α) (v w : Vessel) (a : α) :
    (p.set v a).get w = if w = v then a else p.get w := by
  cases v <;> cases w <;> rfl

@[simp] theorem PerVessel.set_get {α : Type} (p : PerVessel α) (v : Vessel) : p.set v (p.get v) = p := by
  cases v <;> rfl

@[simp] theorem PerVessel.get_all {α : Type} (a : α) (v : Vessel) : (PerVessel.all a).get v = a := by cases v <;> rfl

theorem PerVessel.ext_get {α : Type} {p q : PerVessel α} (h : ∀ v, p.get v = q.get v) : p = q := by
  obtain ⟨a, b, c, d⟩ := p
  obtain ⟨a', b', c', d'⟩ := q
  have h0 := h .mash
  have h1 := h .lauter
  have h2 := h .kettle
  have h3 := h .whirlpool
  simp only [PerVessel.get] at h0 h1 h2 h3
  subst h0 h1 h2 h3
  rfl


/-! ### withVessel -/

section
variable (v : Vessel) (f : VesselRec → VesselRec) (s : State)

@[simp] theorem withVessel_pins : (withVessel v f s).pins = s.pins := rfl
@[simp] theorem withVessel_mode : (withVessel v f s).mode = s.mode := rfl
@[simp] theorem withVessel_stationAddress : (withVessel v f s).stationAddress = s.stationAddress := rfl
@[simp] theorem withVessel_relayOpen : (withVessel v f s).relayOpen = s.relayOpen := rfl
@[simp] theorem withVessel_loopTime : (withVessel v f s).loopTime = s.loopTime := rfl
@[simp] theorem withVessel_loop : (withVessel v f s).loop = s.loop := rfl
@[simp] theorem withVessel_tables : (withVessel v f s).tables = s.tables := rfl
@[simp] theorem withVessel_points : (withVessel v f s).points = s.points := rfl
@[simp] theorem withVessel_vessels : (withVessel v f s).vessels = s.vessels.set v (f (s.vessels.get v)) := rfl
@[simp] theorem withVessel_slots : (withVessel v f s).slots = s.slots := rfl
@[simp] theorem withVessel_brews : (withVessel v f s).brews = s.brews := rfl
@[simp] theorem withVessel_seqs : (withVessel v f s).seqs = s.seqs := rfl
@[simp] theorem withVessel_boil : (withVessel v f s).boil = s.boil := rfl
@[simp] theorem withVessel_castMeter : (withVessel v f s).castMeter = s.castMeter := rfl
@[simp] theorem withVessel_duty : (withVessel v f s).duty = s.duty := rfl
@[simp] theorem withVessel_journal : (withVessel v f s).journal = s.journal := rfl
@[simp] theorem withVessel_store : (withVessel v f s).store = s.store := rfl
@[simp] theorem withVessel_agent : (withVessel v f s).agent = s.agent := rfl
@[simp] theorem withVessel_tells : (withVessel v f s).tells = s.tells := rfl
@[simp] theorem withVessel_pending : (withVessel v f s).pending = s.pending := rfl

end

/-! ### withSeq -/

section
variable (v : Vessel) (f : Sequencer → Sequencer) (s : State)

@[simp] theorem withSeq_pins : (withSeq v f s).pins = s.pins := rfl
@[simp] theorem withSeq_mode : (withSeq v f s).mode = s.mode := rfl
@[simp] theorem withSeq_stationAddress : (withSeq v f s).stationAddress = s.stationAddress := rfl
@[simp] theorem withSeq_relayOpen : (withSeq v f s).relayOpen = s.relayOpen := rfl
@[simp] theorem withSeq_loopTime : (withSeq v f s).loopTime = s.loopTime := rfl
@[simp] theorem withSeq_loop : (withSeq v f s).loop = s.loop := rfl
@[simp] theorem withSeq_tables : (withSeq v f s).tables = s.tables := rfl
@[simp] theorem withSeq_points : (withSeq v f s).points = s.points := rfl
@[simp] theorem withSeq_vessels : (withSeq v f s).vessels = s.vessels := rfl
@[simp] theorem withSeq_slots : (withSeq v f s).slots = s.slots := rfl
@[simp] theorem withSeq_brews : (withSeq v f s).brews = s.brews := rfl
@[simp] theorem withSeq_seqs : (withSeq v f s).seqs = s.seqs.set v (f (s.seqs.get v)) := rfl
@[simp] theorem withSeq_boil : (withSeq v f s).boil = s.boil := rfl
@[simp] theorem withSeq_castMeter : (withSeq v f s).castMeter = s.castMeter := rfl
@[simp] theorem withSeq_duty : (withSeq v f s).duty = s.duty := rfl
@[simp] theorem withSeq_journal : (withSeq v f s).journal = s.journal := rfl
@[simp] theorem withSeq_store : (withSeq v f s).store = s.store := rfl
@[simp] theorem withSeq_agent : (withSeq v f s).agent = s.agent := rfl
@[simp] theorem withSeq_tells : (withSeq v f s).tells = s.tells := rfl
@[simp] theorem withSeq_pending : (withSeq v f s).pending = s.pending := rfl

end

/-! ### withBrew -/

section
variable (n : Nat) (f : Brew → Brew) (s : State)

@[simp] theorem withBrew_pins : (withBrew n f s).pins = s.pins := rfl
@[simp] theorem withBrew_mode : (withBrew n f s).mode = s.mode := rfl
@[simp] theorem withBrew_stationAddress : (withBrew n f s).stationAddress = s.stationAddress := rfl
@[simp] theorem withBrew_relayOpen : (withBrew n f s).relayOpen = s.relayOpen := rfl
@[simp] theorem withBrew_loopTime : (withBrew n f s).loopTime = s.loopTime := rfl
@[simp] theorem withBrew_loop : (withBrew n f s).loop = s.loop := rfl
@[simp] theorem withBrew_tables : (withBrew n f s).tables = s.tables := rfl
@[simp] theorem withBrew_points : (withBrew n f s).points = s.points := rfl
@[simp] theorem withBrew_vessels : (withBrew n f s).vessels = s.vessels := rfl
@[simp] theorem withBrew_slots : (withBrew n f s).slots = s.slots := rfl
@[simp] theorem withBrew_brews :
    (withBrew n f s).brews = s.brews.map fun b => b.map fun b => if b.number = n then f b else b := rfl
@[simp] theorem withBrew_seqs : (withBrew n f s).seqs = s.seqs := rfl
@[simp] theorem withBrew_boil : (withBrew n f s).boil = s.boil := rfl
@[simp] theorem withBrew_castMeter : (withBrew n f s).castMeter = s.castMeter := rfl
@[simp] theorem withBrew_duty : (withBrew n f s).duty = s.duty := rfl
@[simp] theorem withBrew_journal : (withBrew n f s).journal = s.journal := rfl
@[simp] theorem withBrew_store : (withBrew n f s).store = s.store := rfl
@[simp] theorem withBrew_agent : (withBrew n f s).agent = s.agent := rfl
@[simp] theorem withBrew_tells : (withBrew n f s).tells = s.tells := rfl
@[simp] theorem withBrew_pending : (withBrew n f s).pending = s.pending := rfl

end

/-! ### withEntry -/

section
variable (n : Nat) (f : PointEntry → PointEntry) (s : State)

@[simp] theorem withEntry_pins : (withEntry n f s).pins = s.pins := rfl
@[simp] theorem withEntry_mode : (withEntry n f s).mode = s.mode := rfl
@[simp] theorem withEntry_stationAddress : (withEntry n f s).stationAddress = s.stationAddress := rfl
@[simp] theorem withEntry_relayOpen : (withEntry n f s).relayOpen = s.relayOpen := rfl
@[simp] theorem withEntry_loopTime : (withEntry n f s).loopTime = s.loopTime := rfl
@[simp] theorem withEntry_loop : (withEntry n f s).loop = s.loop := rfl
@[simp] theorem withEntry_tables : (withEntry n f s).tables = s.tables := rfl
@[simp] theorem withEntry_points : (withEntry n f s).points = s.points.set n (f (entryOf s n)) := rfl
@[simp] theorem withEntry_vessels : (withEntry n f s).vessels = s.vessels := rfl
@[simp] theorem withEntry_slots : (withEntry n f s).slots = s.slots := rfl
@[simp] theorem withEntry_brews : (withEntry n f s).brews = s.brews := rfl
@[simp] theorem withEntry_seqs : (withEntry n f s).seqs = s.seqs := rfl
@[simp] theorem withEntry_boil : (withEntry n f s).boil = s.boil := rfl
@[simp] theorem withEntry_castMeter : (withEntry n f s).castMeter = s.castMeter := rfl
@[simp] theorem withEntry_duty : (withEntry n f s).duty = s.duty := rfl
@[simp] theorem withEntry_journal : (withEntry n f s).journal = s.journal := rfl
@[simp] theorem withEntry_store : (withEntry n f s).store = s.store := rfl
@[simp] theorem withEntry_agent : (withEntry n f s).agent = s.agent := rfl
@[simp] theorem withEntry_tells : (withEntry n f s).tells = s.tells := rfl
@[simp] theorem withEntry_pending : (withEntry n f s).pending = s.pending := rfl

end

/-! ### withBoil -/

section
variable (f : BoilUnit → BoilUnit) (s : State)

@[simp] theorem withBoil_pins : (withBoil f s).pins = s.pins := rfl
@[simp] theorem withBoil_mode : (withBoil f s).mode = s.mode := rfl
@[simp] theorem withBoil_stationAddress : (withBoil f s).stationAddress = s.stationAddress := rfl
@[simp] theorem withBoil_relayOpen : (withBoil f s).relayOpen = s.relayOpen := rfl
@[simp] theorem withBoil_loopTime : (withBoil f s).loopTime = s.loopTime := rfl
@[simp] theorem withBoil_loop : (withBoil f s).loop = s.loop := rfl
@[simp] theorem withBoil_tables : (withBoil f s).tables = s.tables := rfl
@[simp] theorem withBoil_points : (withBoil f s).points = s.points := rfl
@[simp] theorem withBoil_vessels : (withBoil f s).vessels = s.vessels := rfl
@[simp] theorem withBoil_slots : (withBoil f s).slots = s.slots := rfl
@[simp] theorem withBoil_brews : (withBoil f s).brews = s.brews := rfl
@[simp] theorem withBoil_seqs : (withBoil f s).seqs = s.seqs := rfl
@[simp] theorem withBoil_boil : (withBoil f s).boil = f s.boil := rfl
@[simp] theorem withBoil_castMeter : (withBoil f s).castMeter = s.castMeter := rfl
@[simp] theorem withBoil_duty : (withBoil f s).duty = s.duty := rfl
@[simp] theorem withBoil_journal : (withBoil f s).journal = s.journal := rfl
@[simp] theorem withBoil_store : (withBoil f s).store = s.store := rfl
@[simp] theorem withBoil_agent : (withBoil f s).agent = s.agent := rfl
@[simp] theorem withBoil_tells : (withBoil f s).tells = s.tells := rfl
@[simp] theorem withBoil_pending : (withBoil f s).pending = s.pending := rfl

end

/-! ### withCast -/

section
variable (f : Cast → Cast) (s : State)

@[simp] theorem withCast_pins : (withCast f s).pins = s.pins := rfl
@[simp] theorem withCast_mode : (withCast f s).mode = s.mode := rfl
@[simp] theorem withCast_stationAddress : (withCast f s).stationAddress = s.stationAddress := rfl
@[simp] theorem withCast_relayOpen : (withCast f s).relayOpen = s.relayOpen := rfl
@[simp] theorem withCast_loopTime : (withCast f s).loopTime = s.loopTime := rfl
@[simp] theorem withCast_loop : (withCast f s).loop = s.loop := rfl
@[simp] theorem withCast_tables : (withCast f s).tables = s.tables := rfl
@[simp] theorem withCast_points : (withCast f s).points = s.points := rfl
@[simp] theorem withCast_vessels : (withCast f s).vessels = s.vessels := rfl
@[simp] theorem withCast_slots : (withCast f s).slots = s.slots := rfl
@[simp] theorem withCast_brews : (withCast f s).brews = s.brews := rfl
@[simp] theorem withCast_seqs : (withCast f s).seqs = s.seqs := rfl
@[simp] theorem withCast_boil : (withCast f s).boil = s.boil := rfl
@[simp] theorem withCast_castMeter :
    (withCast f s).castMeter = { s.castMeter with record := s.castMeter.record.map f } := rfl
@[simp] theorem withCast_duty : (withCast f s).duty = s.duty := rfl
@[simp] theorem withCast_journal : (withCast f s).journal = s.journal := rfl
@[simp] theorem withCast_store : (withCast f s).store = s.store := rfl
@[simp] theorem withCast_agent : (withCast f s).agent = s.agent := rfl
@[simp] theorem withCast_tells : (withCast f s).tells = s.tells := rfl
@[simp] theorem withCast_pending : (withCast f s).pending = s.pending := rfl

end

/-! ### withJournal -/

section
variable (f : Journal → Journal) (s : State)

@[simp] theorem withJournal_pins : (withJournal f s).pins = s.pins := rfl
@[simp] theorem withJournal_mode : (withJournal f s).mode = s.mode := rfl
@[simp] theorem withJournal_stationAddress : (withJournal f s).stationAddress = s.stationAddress := rfl
@[simp] theorem withJournal_relayOpen : (withJournal f s).relayOpen = s.relayOpen := rfl
@[simp] theorem withJournal_loopTime : (withJournal f s).loopTime = s.loopTime := rfl
@[simp] theorem withJournal_loop : (withJournal f s).loop = s.loop := rfl
@[simp] theorem withJournal_tables : (withJournal f s).tables = s.tables := rfl
@[simp] theorem withJournal_points : (withJournal f s).points = s.points := rfl
@[simp] theorem withJournal_vessels : (withJournal f s).vessels = s.vessels := rfl
@[simp] theorem withJournal_slots : (withJournal f s).slots = s.slots := rfl
@[simp] theorem withJournal_brews : (withJournal f s).brews = s.brews := rfl
@[simp] theorem withJournal_seqs : (withJournal f s).seqs = s.seqs := rfl
@[simp] theorem withJournal_boil : (withJournal f s).boil = s.boil := rfl
@[simp] theorem withJournal_castMeter : (withJournal f s).castMeter = s.castMeter := rfl
@[simp] theorem withJournal_duty : (withJournal f s).duty = s.duty := rfl
@[simp] theorem withJournal_journal : (withJournal f s).journal = f s.journal := rfl
@[simp] theorem withJournal_store : (withJournal f s).store = s.store := rfl
@[simp] theorem withJournal_agent : (withJournal f s).agent = s.agent := rfl
@[simp] theorem withJournal_tells : (withJournal f s).tells = s.tells := rfl
@[simp] theorem withJournal_pending : (withJournal f s).pending = s.pending := rfl

end

/-! ### withDuty -/

section
variable (f : Duty → Duty) (s : State)

@[simp] theorem withDuty_pins : (withDuty f s).pins = s.pins := rfl
@[simp] theorem withDuty_mode : (withDuty f s).mode = s.mode := rfl
@[simp] theorem withDuty_stationAddress : (withDuty f s).stationAddress = s.stationAddress := rfl
@[simp] theorem withDuty_relayOpen : (withDuty f s).relayOpen = s.relayOpen := rfl
@[simp] theorem withDuty_loopTime : (withDuty f s).loopTime = s.loopTime := rfl
@[simp] theorem withDuty_loop : (withDuty f s).loop = s.loop := rfl
@[simp] theorem withDuty_tables : (withDuty f s).tables = s.tables := rfl
@[simp] theorem withDuty_points : (withDuty f s).points = s.points := rfl
@[simp] theorem withDuty_vessels : (withDuty f s).vessels = s.vessels := rfl
@[simp] theorem withDuty_slots : (withDuty f s).slots = s.slots := rfl
@[simp] theorem withDuty_brews : (withDuty f s).brews = s.brews := rfl
@[simp] theorem withDuty_seqs : (withDuty f s).seqs = s.seqs := rfl
@[simp] theorem withDuty_boil : (withDuty f s).boil = s.boil := rfl
@[simp] theorem withDuty_castMeter : (withDuty f s).castMeter = s.castMeter := rfl
@[simp] theorem withDuty_duty : (withDuty f s).duty = f s.duty := rfl
@[simp] theorem withDuty_journal : (withDuty f s).journal = s.journal := rfl
@[simp] theorem withDuty_store : (withDuty f s).store = s.store := rfl
@[simp] theorem withDuty_agent : (withDuty f s).agent = s.agent := rfl
@[simp] theorem withDuty_tells : (withDuty f s).tells = s.tells := rfl
@[simp] theorem withDuty_pending : (withDuty f s).pending = s.pending := rfl

end

/-! ### withAgent -/

section
variable (f : Agent → Agent) (s : State)

@[simp] theorem withAgent_pins : (withAgent f s).pins = s.pins := rfl
@[simp] theorem withAgent_mode : (withAgent f s).mode = s.mode := rfl
@[simp] theorem withAgent_stationAddress : (withAgent f s).stationAddress = s.stationAddress := rfl
@[simp] theorem withAgent_relayOpen : (withAgent f s).relayOpen = s.relayOpen := rfl
@[simp] theorem withAgent_loopTime : (withAgent f s).loopTime = s.loopTime := rfl
@[simp] theorem withAgent_loop : (withAgent f s).loop = s.loop := rfl
@[simp] theorem withAgent_tables : (withAgent f s).tables = s.tables := rfl
@[simp] theorem withAgent_points : (withAgent f s).points = s.points := rfl
@[simp] theorem withAgent_vessels : (withAgent f s).vessels = s.vessels := rfl
@[simp] theorem withAgent_slots : (withAgent f s).slots = s.slots := rfl
@[simp] theorem withAgent_brews : (withAgent f s).brews = s.brews := rfl
@[simp] theorem withAgent_seqs : (withAgent f s).seqs = s.seqs := rfl
@[simp] theorem withAgent_boil : (withAgent f s).boil = s.boil := rfl
@[simp] theorem withAgent_castMeter : (withAgent f s).castMeter = s.castMeter := rfl
@[simp] theorem withAgent_duty : (withAgent f s).duty = s.duty := rfl
@[simp] theorem withAgent_journal : (withAgent f s).journal = s.journal := rfl
@[simp] theorem withAgent_store : (withAgent f s).store = s.store := rfl
@[simp] theorem withAgent_agent : (withAgent f s).agent = f s.agent := rfl
@[simp] theorem withAgent_tells : (withAgent f s).tells = s.tells := rfl
@[simp] theorem withAgent_pending : (withAgent f s).pending = s.pending := rfl

end

/-! ### withLoop -/

section
variable (f : LoopPort → LoopPort) (s : State)

@[simp] theorem withLoop_pins : (withLoop f s).pins = s.pins := rfl
@[simp] theorem withLoop_mode : (withLoop f s).mode = s.mode := rfl
@[simp] theorem withLoop_stationAddress : (withLoop f s).stationAddress = s.stationAddress := rfl
@[simp] theorem withLoop_relayOpen : (withLoop f s).relayOpen = s.relayOpen := rfl
@[simp] theorem withLoop_loopTime : (withLoop f s).loopTime = s.loopTime := rfl
@[simp] theorem withLoop_loop : (withLoop f s).loop = f s.loop := rfl
@[simp] theorem withLoop_tables : (withLoop f s).tables = s.tables := rfl
@[simp] theorem withLoop_points : (withLoop f s).points = s.points := rfl
@[simp] theorem withLoop_vessels : (withLoop f s).vessels = s.vessels := rfl
@[simp] theorem withLoop_slots : (withLoop f s).slots = s.slots := rfl
@[simp] theorem withLoop_brews : (withLoop f s).brews = s.brews := rfl
@[simp] theorem withLoop_seqs : (withLoop f s).seqs = s.seqs := rfl
@[simp] theorem withLoop_boil : (withLoop f s).boil = s.boil := rfl
@[simp] theorem withLoop_castMeter : (withLoop f s).castMeter = s.castMeter := rfl
@[simp] theorem withLoop_duty : (withLoop f s).duty = s.duty := rfl
@[simp] theorem withLoop_journal : (withLoop f s).journal = s.journal := rfl
@[simp] theorem withLoop_store : (withLoop f s).store = s.store := rfl
@[simp] theorem withLoop_agent : (withLoop f s).agent = s.agent := rfl
@[simp] theorem withLoop_tells : (withLoop f s).tells = s.tells := rfl
@[simp] theorem withLoop_pending : (withLoop f s).pending = s.pending := rfl

end

end Sys2Proof.Machine
end

