-- ==== Sys2Proof/Laws/Offer.lean ====
section
/-! SUPPORT. The laws of what every block uses: raising an event, offering a frame, and bringing the conditions to
their causes touch nothing but what `State.bare` or `State.rest` sets aside. -/

namespace Sys2Proof.Machine

variable {s t : State}

/-! ### The erasures themselves -/

@[simp] theorem rest_rest (s : State) : s.rest.rest = s.rest := rfl
@[simp] theorem bare_bare (s : State) : s.bare.bare = s.bare := rfl
@[simp] theorem works_bare (s : State) : s.bare.works = s.works := rfl
@[simp] theorem outer_works (s : State) : s.works.outer = s.outer := rfl

theorem works_of_bare (h : t.bare = s.bare) : t.works = s.works := by
  rw [← works_bare t, h, works_bare]

theorem outer_of_works (h : t.works = s.works) : t.outer = s.outer := by
  rw [← outer_works t, h, outer_works]

theorem outer_of_bare (h : t.bare = s.bare) : t.outer = s.outer := outer_of_works (works_of_bare h)

/-! ### Events -/

@[simp] theorem latch_bare (c : Cond) (s : State) : (latch c s).bare = s.bare := by
  unfold latch withAgent
  simp only
  split <;> rfl

@[simp] theorem raise_bare (k : EventKind) (u : Subject) (b : Option Nat) (a : EventArg) (s : State) :
    (raise k u b a s).bare = s.bare := by
  unfold raise
  simp only
  split
  · split <;> split <;> simp
  · rfl

@[simp] theorem raiseVessel_bare (k : EventKind) (v : Vessel) (a : EventArg) (s : State) :
    (raiseVessel k v a s).bare = s.bare := raise_bare ..

@[simp] theorem raiseCast_bare (k : EventKind) (a : EventArg) (s : State) : (raiseCast k a s).bare = s.bare := by
  unfold raiseCast
  split <;> exact raise_bare ..

@[simp] theorem raiseBoil_bare (k : EventKind) (n : Nat) (a : EventArg) (s : State) :
    (raiseBoil k n a s).bare = s.bare := raise_bare ..

/-! ### The insertion queue -/

theorem bare_of_rest (h : t.rest = s.rest) (hs : t.seqs = s.seqs) : t.bare = s.bare := by
  have e : ∀ u : State, u.bare = { u.rest.bare with seqs := u.seqs } := fun _ => rfl
  rw [e t, e s, h, hs]

@[simp] theorem tellLeft_rest (o : Owner) (s : State) : (tellLeft o s).rest = s.rest := by
  cases o <;> rfl

@[simp] theorem beginInsertion_rest (q : Insertion) (r : List Insertion) (s : State) :
    (beginInsertion q r s).rest = s.rest := rfl

@[simp] theorem startNext_rest (s : State) : (startNext s).rest = s.rest := by
  unfold startNext
  split
  · rfl
  · rfl
  · split
    · rfl
    · rfl
    · simp
    · split
      · simp
      · rfl
    · rfl

@[simp] theorem enterQueue_rest (f : Frame) (o : Owner) (s : State) : (enterQueue f o s).2.rest = s.rest := by
  unfold enterQueue
  simp only
  split
  · rfl
  · exact startNext_rest _

/-- The update of an event overflow changes nothing but the Management Agent's latched conditions. -/
theorem latch_eq (c : Cond) (s : State) : ∃ l, latch c s = { s with agent := { s.agent with latched := l } } := by
  unfold latch withAgent
  simp only
  split
  · exact ⟨s.agent.latched, rfl⟩
  · exact ⟨_, rfl⟩

@[simp] theorem tellLeft_seqs (o : Owner) (s : State) : (tellLeft o s).seqs = s.seqs := by cases o <;> rfl

@[simp] theorem startNext_seqs (s : State) : (startNext s).seqs = s.seqs := by
  unfold startNext
  split
  · rfl
  · rfl
  · split
    · rfl
    · rfl
    · simp [beginInsertion]
    · split
      · simp [beginInsertion]
      · rfl
    · rfl

@[simp] theorem enterQueue_seqs (f : Frame) (o : Owner) (s : State) : (enterQueue f o s).2.seqs = s.seqs := by
  unfold enterQueue
  simp only
  split
  · rfl
  · exact startNext_seqs _

@[simp] theorem enterQueue_bare (f : Frame) (o : Owner) (s : State) : (enterQueue f o s).2.bare = s.bare :=
  bare_of_rest (enterQueue_rest ..) (enterQueue_seqs ..)

@[simp] theorem startNext_bare (s : State) : (startNext s).bare = s.bare :=
  bare_of_rest (startNext_rest ..) (startNext_seqs ..)

@[simp] theorem tellLeft_bare (o : Owner) (s : State) : (tellLeft o s).bare = s.bare := by cases o <;> rfl

@[simp] theorem offer_bare (f : Frame) (o : Owner) (s : State) : (offer f o s).2.bare = s.bare := by
  unfold offer
  simp only
  split
  · simp; rfl
  · split
    · simp
    · split
      · split
        · simp; rfl
        · rfl
      · rfl

/-- An offer of a frame that is no DRIVE (R14, R16): it is sent at once, queued at the tail, or refused, and nothing
else changes but the frames that wait and the congestion. -/
theorem offer_report (f : Frame) (o : Owner) (s : State) (hk : f.kind ≠ kindDrive) :
    offer f o s = if s.loop.queue.length < 32 then enterQueue f.sealed o s
      else (.refused, withLoop (fun l => { l with congested := true }) s) := by
  have hr : ∀ q, replaceDrive f.sealed o q = none := by
    intro q
    induction q with
    | nil => rfl
    | cons a q ih =>
      have : samePoint f.sealed a.frame = false := by
        have : (f.sealed).kind = f.kind := rfl
        simp [samePoint, this, hk]
      simp [replaceDrive, this, ih]
  have hk' : (f.sealed).kind ≠ kindDrive := hk
  unfold offer
  simp only [hr, hk', if_false]

@[simp] theorem offer_rest_of_report (f : Frame) (o : Owner) (s : State) (hk : f.kind ≠ kindDrive) :
    (offer f o s).2.rest = s.rest := by
  rw [offer_report f o s hk]
  split
  · simp
  · rfl

@[simp] theorem reply_rest (d g c : Byte) (r : Result) (data : List Byte) (s : State) :
    (reply d g c r data s).2.rest = s.rest := by
  unfold reply
  exact offer_rest_of_report _ _ _ (show kindReply ≠ kindDrive by decide)

@[simp] theorem reply_bare (d g c : Byte) (r : Result) (data : List Byte) (s : State) :
    (reply d g c r data s).2.bare = s.bare := offer_bare ..

@[simp] theorem answer_rest (c : Nat) (rq : Request) (r : Result) (data : List Byte) (s : State) :
    (answer c rq r data s).rest = s.rest := reply_rest ..

@[simp] theorem answer_bare (c : Nat) (rq : Request) (r : Result) (data : List Byte) (s : State) :
    (answer c rq r data s).bare = s.bare := reply_bare ..

@[simp] theorem answerPage_rest (c : Nat) (rq : Request) (r : Result) (p : Nat) (data : List Byte) (s : State) :
    (answerPage c rq r p data s).rest = s.rest := reply_rest ..

@[simp] theorem answerPage_bare (c : Nat) (rq : Request) (r : Result) (p : Nat) (data : List Byte) (s : State) :
    (answerPage c rq r p data s).bare = s.bare := reply_bare ..

@[simp] theorem offerDrive_bare (row d : Nat) (o : Owner) (s : State) : (offerDrive row d o s).2.bare = s.bare := by
  unfold offerDrive
  split
  · simp
  · rfl

/-! ### Conditions -/

@[simp] theorem attention_rest (s : State) : (attention s).rest = s.rest := by
  unfold attention
  split
  · rfl
  · have h := offer_rest_of_report (reportFrame s 1 (condMask s.agent.conditions)) .agent s
      (show kindReport ≠ kindDrive by decide)
    split
    rename_i r t he
    rw [he] at h
    split
    · exact h
    · exact h

@[simp] theorem attention_seqs (s : State) : (attention s).seqs = s.seqs := by
  have h := congrArg State.seqs (offer_bare (reportFrame s 1 (condMask s.agent.conditions)) .agent s)
  unfold attention
  split
  · rfl
  · split
    rename_i r t he
    rw [he] at h
    split
    · exact h
    · exact h

@[simp] theorem joinCond_rest (c : Cond) (s : State) : (joinCond c s).rest = s.rest := by
  unfold joinCond
  simp only
  split
  · rfl
  · rw [attention_rest]; rfl

@[simp] theorem joinCond_seqs (c : Cond) (s : State) : (joinCond c s).seqs = s.seqs := by
  unfold joinCond
  simp only
  split
  · rfl
  · rw [attention_seqs]; rfl

@[simp] theorem leaveConds_rest (s : State) : (leaveConds s).rest = s.rest := rfl
@[simp] theorem leaveConds_seqs (s : State) : (leaveConds s).seqs = s.seqs := rfl

@[simp] theorem joinIfCaused_rest (s : State) (c : Cond) : (joinIfCaused s c).rest = s.rest := by
  unfold joinIfCaused
  split <;> simp

@[simp] theorem joinIfCaused_seqs (s : State) (c : Cond) : (joinIfCaused s c).seqs = s.seqs := by
  unfold joinIfCaused
  split <;> simp

@[simp] theorem joinAll_rest (l : List Cond) (s : State) : (l.foldl joinIfCaused s).rest = s.rest := by
  induction l generalizing s with
  | nil => rfl
  | cons c l ih => simp [ih]

@[simp] theorem joinAll_seqs (l : List Cond) (s : State) : (l.foldl joinIfCaused s).seqs = s.seqs := by
  induction l generalizing s with
  | nil => rfl
  | cons c l ih => simp [ih]

/-- The condition set is brought to its causes without touching anything but the conditions and the frames that
wait (R177, R178). -/
@[simp] theorem syncConditions_rest (s : State) : (syncConditions s).rest = s.rest := by
  unfold syncConditions
  split <;> simp

@[simp] theorem syncConditions_seqs (s : State) : (syncConditions s).seqs = s.seqs := by
  unfold syncConditions
  split <;> simp

@[simp] theorem syncConditions_bare (s : State) : (syncConditions s).bare = s.bare :=
  bare_of_rest (syncConditions_rest s) (syncConditions_seqs s)

/-! ### The end of a command -/

@[simp] theorem refreshSync_rest (s : State) (v : Vessel) : (refreshSync s v).rest = s.rest := by
  cases v <;> rfl

@[simp] theorem refreshAll_rest (l : List Vessel) (s : State) : (l.foldl refreshSync s).rest = s.rest := by
  induction l generalizing s with
  | nil => rfl
  | cons v l ih => simp [ih]

theorem rest_tells (s : State) : ({ s with tells := [] } : State).rest = s.rest := rfl

@[simp] theorem drainTells_nil (n : Nat) (h : s.tells = []) : drainTells n s = s := by
  cases n with
  | zero => rfl
  | succ n => simp [drainTells, h]

/-- With no notice under way, the end of a command touches the refresh timers, the conditions and the frames that
wait, and nothing else. -/
theorem settle_rest (h : s.tells = []) : (settle s).rest = s.rest := by
  unfold settle
  rw [rest_tells, syncConditions_rest, refreshAll_rest, drainTells_nil 64 h]

@[simp] theorem settle_tells (s : State) : (settle s).tells = [] := rfl

end Sys2Proof.Machine
end

