-- ==== Sys2Proof/Laws/Works.lean ====
section
/-! SUPPORT. The works laws: the pump, the Pitch Unit, the Cast Meter and the Boil Unit touch nothing but what
`State.works` sets aside. -/

namespace Sys2Proof.Machine

variable {s t : State}

@[simp] theorem latch_works (c : Cond) (s : State) : (latch c s).works = s.works := works_of_bare (latch_bare ..)
@[simp] theorem raise_works (k : EventKind) (u : Subject) (b : Option Nat) (a : EventArg) (s : State) :
    (raise k u b a s).works = s.works := works_of_bare (raise_bare ..)
@[simp] theorem raiseVessel_works (k : EventKind) (v : Vessel) (a : EventArg) (s : State) :
    (raiseVessel k v a s).works = s.works := works_of_bare (raiseVessel_bare ..)
@[simp] theorem raiseCast_works (k : EventKind) (a : EventArg) (s : State) :
    (raiseCast k a s).works = s.works := works_of_bare (raiseCast_bare ..)
@[simp] theorem raiseBoil_works (k : EventKind) (n : Nat) (a : EventArg) (s : State) :
    (raiseBoil k n a s).works = s.works := works_of_bare (raiseBoil_bare ..)
@[simp] theorem offer_works (f : Frame) (o : Owner) (s : State) : (offer f o s).2.works = s.works :=
  works_of_bare (offer_bare ..)
@[simp] theorem offerDrive_works (r d : Nat) (o : Owner) (s : State) : (offerDrive r d o s).2.works = s.works :=
  works_of_bare (offerDrive_bare ..)
@[simp] theorem answer_works (c : Nat) (rq : Request) (r : Result) (data : List Byte) (s : State) :
    (answer c rq r data s).works = s.works := works_of_bare (answer_bare ..)

/-! ### Updates -/

@[simp] theorem withBrew_works (n : Nat) (f : Brew → Brew) (s : State) : (withBrew n f s).works = s.works := rfl
@[simp] theorem withBoil_works (f : BoilUnit → BoilUnit) (s : State) : (withBoil f s).works = s.works := rfl
@[simp] theorem withCast_works (f : Cast → Cast) (s : State) : (withCast f s).works = s.works := rfl
@[simp] theorem withPitch_works (f : PitchPart → PitchPart) (s : State) : (withPitch f s).works = s.works := rfl
@[simp] theorem withJournal_works (f : Journal → Journal) (s : State) : (withJournal f s).works = s.works := rfl
@[simp] theorem withDuty_works (f : Duty → Duty) (s : State) : (withDuty f s).works = s.works := rfl
@[simp] theorem withBoilRecord_works (n : Nat) (f : BoilRecord → BoilRecord) (s : State) :
    (withBoilRecord n f s).works = s.works := rfl
@[simp] theorem castMeter_works (s : State) (c : CastMeter) : ({ s with castMeter := c } : State).works = s.works := rfl

/-! ### The pump and the pauses -/

theorem drivePump_eq (d : Nat) (s : State) :
    drivePump d s =
      let o := offerDrive (lineRow s.tables).pump d .castMeter s
      { o.2 with castMeter := { o.2.castMeter with pumpUnsent := if o.1.taken then none else some d } } := rfl

@[simp] theorem drivePump_works (d : Nat) (s : State) : (drivePump d s).works = s.works := by
  simp [drivePump_eq]

@[simp] theorem reofferPump_works (s : State) : (reofferPump s).works = s.works := by
  unfold reofferPump; split <;> simp

@[simp] theorem pausedEntry_works (s : State) : (pausedEntry s).works = s.works := by
  unfold pausedEntry; split <;> simp

@[simp] theorem reviewPauses_works (s : State) : (reviewPauses s).works = s.works := by
  unfold reviewPauses; simp only; repeat' split
  all_goals simp

/-! ### The Pitch Unit -/

@[simp] theorem testLag_works (s : State) : (testLag s).works = s.works := by simp [testLag]

@[simp] theorem tryIssue_works (s : State) : (tryIssue s).works = s.works := by
  unfold tryIssue
  split
  · rfl
  · rename_i c _
    split
    · rfl
    · split
      · have e := offerDrive_works (lineRow s.tables).dose 1000 (.pitchUnit c.number) s
        split <;> (rename_i h; rw [h] at e; simpa using e)
      · rfl

@[simp] theorem newGv_works (s : State) : (newGv s).works = s.works := by
  unfold newGv; split <;> simp

@[simp] theorem doseFrameLeft_works (n : Nat) (s : State) : (doseFrameLeft n s).works = s.works := by
  unfold doseFrameLeft; simp only; split <;> simp

@[simp] theorem strokeDonePart_works (s : State) : (strokeDonePart s).works = s.works := by
  unfold strokeDonePart; repeat' split
  all_goals simp

@[simp] theorem strokeTimeoutPart_works (s : State) : (strokeTimeoutPart s).works = s.works := by
  unfold strokeTimeoutPart; split
  · rfl
  · simp only; split <;> simp

/-! ### The Cast Meter -/

@[simp] theorem changeBrewState_works (n : Nat) (st : BrewState) (u : Subject) (s : State) :
    (changeBrewState n st u s).works = s.works := by simp [changeBrewState]

theorem offerRecord_works {d : Draft} (h : offerRecord d s = some t) : t.works = s.works := by
  unfold offerRecord at h
  split at h
  · cases h; rfl
  · cases h

@[simp] theorem openCast_works (b : Brew) (s : State) : (openCast b s).works = s.works := by
  unfold openCast; simp only
  split
  · rfl
  · rename_i t h
    simp only [changeBrewState_works, withBrew_works]
    have e := offerRecord_works h
    exact e

@[simp] theorem castAttempt_works (s : State) : (castAttempt s).2.works = s.works := by
  unfold castAttempt; repeat' split
  all_goals simp

@[simp] theorem flowSample_works (c : BitVec 32) (s : State) : (flowSample c s).works = s.works := by
  unfold flowSample; simp only; repeat' split
  all_goals simp

@[simp] theorem enterSettling_works (s : State) : (enterSettling s).works = s.works := by simp [enterSettling]

@[simp] theorem addCharge_works (n : Nat) (d : DutyPart) (s : State) : (addCharge n d s).works = s.works := rfl

@[simp] theorem offerClose_works (d : Draft) (s : State) : (offerClose d s).works = s.works := by
  unfold offerClose; simp only
  split
  · rename_i t h
    have e := offerRecord_works h
    repeat' split
    all_goals simp [e]
  · rfl

@[simp] theorem enterCharging_works (s : State) : (enterCharging s).works = s.works := by
  unfold enterCharging; split <;> simp

@[simp] theorem maybeCharge_works (s : State) : (maybeCharge s).works = s.works := by
  unfold maybeCharge; repeat' split
  all_goals simp

@[simp] theorem settleExpiry_works (s : State) : (settleExpiry s).works = s.works := by simp [settleExpiry]
@[simp] theorem strokeDone_works (s : State) : (strokeDone s).works = s.works := by simp [strokeDone]
@[simp] theorem strokeTimeout_works (s : State) : (strokeTimeout s).works = s.works := by simp [strokeTimeout]

@[simp] theorem endTrigger_works (c : EndCause) (s : State) : (endTrigger c s).works = s.works := by
  unfold endTrigger; repeat' split
  all_goals simp

@[simp] theorem castPowerFail_works (s : State) : (castPowerFail s).works = s.works := by
  unfold castPowerFail; repeat' split
  all_goals simp

@[simp] theorem castSample_works (r : Nat) (s : State) : (castSample r s).works = s.works := by
  unfold castSample; simp only; repeat' split
  all_goals simp

@[simp] theorem castExpiry_works (r : Nat) (s : State) : (castExpiry r s).works = s.works := by
  unfold castExpiry; simp only; split <;> simp

@[simp] theorem castLevel_works (x : Int) (s : State) : (castLevel x s).works = s.works := by
  unfold castLevel; simp only; split <;> simp

/-! ### The Boil Unit -/

@[simp] theorem recordMissed_works (n i : Nat) (c : MissCause) (s : State) :
    (recordMissed n i c s).works = s.works := by simp [recordMissed]

@[simp] theorem recordFired_works (n i : Nat) (s : State) : (recordFired n i s).works = s.works := by
  simp [recordFired]

@[simp] theorem offerAddition_works (e : SendEntry) (s : State) : (offerAddition e s).2.works = s.works := by
  unfold offerAddition; repeat' split
  all_goals simp

@[simp] theorem popSend_works (s : State) : (popSend s).works = s.works := rfl

@[simp] theorem pumpSend_works (n : Nat) (s : State) : (pumpSend n s).works = s.works := by
  induction n generalizing s with
  | zero => rfl
  | succ n ih =>
    unfold pumpSend
    split
    · rfl
    · split
      · rfl
      · rename_i e _ _
        split
        · simp [ih]
        · have h := offerAddition_works e s
          split <;> (rename_i he; rw [he] at h; simpa [ih] using h)

@[simp] theorem boilPump_works (s : State) : (boilPump s).works = s.works := pumpSend_works ..
@[simp] theorem boilFrameLeft_works (s : State) : (boilFrameLeft s).works = s.works := by simp [boilFrameLeft]

@[simp] theorem joinSend_works (n i : Nat) (a : AdditionRow) (s : State) : (joinSend n i a s).works = s.works := by
  unfold joinSend; simp only; split <;> simp

@[simp] theorem walkAdditions_works (b : Brew) (n : Nat) (s : State) : (walkAdditions b n s).works = s.works := by
  induction n generalizing s with
  | zero => rfl
  | succ n ih =>
    unfold walkAdditions
    simp only
    repeat' split
    all_goals simp [ih]

@[simp] theorem resolvePending_works (i : Nat) (s : State) : (resolvePending i s).works = s.works := rfl

@[simp] theorem boilContinue_works (s : State) : (boilContinue s).works = s.works := by
  unfold boilContinue; split <;> simp

@[simp] theorem confirmExpiry_works (s : State) : (confirmExpiry s).works = s.works := by
  unfold confirmExpiry; split <;> simp

@[simp] theorem boilAfresh_works (s : State) : (boilAfresh s).works = s.works := rfl

@[simp] theorem beginBoil_works (b : Brew) (s : State) : (beginBoil b s).works = s.works := by simp [beginBoil]

@[simp] theorem accrueBoil_works (n d : Nat) (s : State) : (accrueBoil n d s).works = s.works := rfl

theorem recordAll_works {α : Type} (g : α → Nat) (n : Nat) (c : MissCause) (l : List α) (s : State) :
    (l.foldl (fun s i => recordMissed n (g i) c s) s).works = s.works := by
  induction l generalizing s with
  | nil => rfl
  | cons i l ih => simp [ih]

@[simp] theorem missRest_works (b : Brew) (s : State) : (missRest b s).works = s.works := by
  unfold missRest; simp only; rw [recordAll_works (fun i => i)]; rfl

@[simp] theorem completeBoil_works (b : Brew) (s : State) : (completeBoil b s).works = s.works := by
  have h := missRest_works b s
  unfold completeBoil; simp only
  repeat' split
  all_goals first | exact h | (simp only [raiseBoil_works, withBoilRecord_works]; exact h)

@[simp] theorem boilStages_works (b : Brew) (x : Int) (p : Option Int) (d : Nat) (s : State) :
    (boilStages b x p d s).works = s.works := by
  unfold boilStages; simp only
  repeat' split
  all_goals simp

@[simp] theorem haltBoilStep_works (n : Nat) (s : State) : (haltBoilStep n s).works = s.works := by
  unfold haltBoilStep; simp only; repeat' split
  all_goals simp

@[simp] theorem dropSends_works (n : Nat) (s : State) : (dropSends n s).works = s.works := rfl
@[simp] theorem haltSends_works (n : Nat) (s : State) : (haltSends n s).works = s.works := by
  unfold haltSends; simp only; rw [recordAll_works (fun e : SendEntry => e.index)]; rfl

end Sys2Proof.Machine
end

