-- ==== Sys2Proof/Laws/Outer.lean ====
section
/-! SUPPORT. The outer laws: the guard, the sequencers, authority and the Brew Manager touch nothing but what
`State.outer` sets aside. -/

namespace Sys2Proof.Machine

variable {s t : State}

/-! ### Lifted laws -/

@[simp] theorem raise_outer (k : EventKind) (u : Subject) (b : Option Nat) (a : EventArg) (s : State) :
    (raise k u b a s).outer = s.outer := outer_of_works (raise_works ..)
@[simp] theorem raiseVessel_outer (k : EventKind) (v : Vessel) (a : EventArg) (s : State) :
    (raiseVessel k v a s).outer = s.outer := outer_of_works (raiseVessel_works ..)
@[simp] theorem raiseCast_outer (k : EventKind) (a : EventArg) (s : State) :
    (raiseCast k a s).outer = s.outer := outer_of_works (raiseCast_works ..)
@[simp] theorem offer_outer (f : Frame) (o : Owner) (s : State) : (offer f o s).2.outer = s.outer :=
  outer_of_works (offer_works ..)
@[simp] theorem offerDrive_outer (r d : Nat) (o : Owner) (s : State) : (offerDrive r d o s).2.outer = s.outer :=
  outer_of_works (offerDrive_works ..)
@[simp] theorem answer_outer (c : Nat) (rq : Request) (r : Result) (data : List Byte) (s : State) :
    (answer c rq r data s).outer = s.outer := outer_of_works (answer_works ..)
@[simp] theorem reviewPauses_outer (s : State) : (reviewPauses s).outer = s.outer :=
  outer_of_works (reviewPauses_works ..)
@[simp] theorem tryIssue_outer (s : State) : (tryIssue s).outer = s.outer := outer_of_works (tryIssue_works ..)
@[simp] theorem castAttempt_outer (s : State) : (castAttempt s).2.outer = s.outer :=
  outer_of_works (castAttempt_works ..)
@[simp] theorem endTrigger_outer (c : EndCause) (s : State) : (endTrigger c s).outer = s.outer :=
  outer_of_works (endTrigger_works ..)
@[simp] theorem castLevel_outer (x : Int) (s : State) : (castLevel x s).outer = s.outer :=
  outer_of_works (castLevel_works ..)
@[simp] theorem changeBrewState_outer (n : Nat) (st : BrewState) (u : Subject) (s : State) :
    (changeBrewState n st u s).outer = s.outer := outer_of_works (changeBrewState_works ..)
@[simp] theorem boilPump_outer (s : State) : (boilPump s).outer = s.outer := outer_of_works (boilPump_works ..)
@[simp] theorem boilAfresh_outer (s : State) : (boilAfresh s).outer = s.outer := rfl
@[simp] theorem boilContinue_outer (s : State) : (boilContinue s).outer = s.outer :=
  outer_of_works (boilContinue_works ..)
@[simp] theorem boilStages_outer (b : Brew) (x : Int) (p : Option Int) (d : Nat) (s : State) :
    (boilStages b x p d s).outer = s.outer := outer_of_works (boilStages_works ..)
@[simp] theorem completeBoil_outer (b : Brew) (s : State) : (completeBoil b s).outer = s.outer :=
  outer_of_works (completeBoil_works ..)
@[simp] theorem haltBoilStep_outer (n : Nat) (s : State) : (haltBoilStep n s).outer = s.outer :=
  outer_of_works (haltBoilStep_works ..)
@[simp] theorem dropSends_outer (n : Nat) (s : State) : (dropSends n s).outer = s.outer := rfl
@[simp] theorem leaveConds_outer (s : State) : (leaveConds s).outer = s.outer := rfl
@[simp] theorem haltSends_outer (n : Nat) (s : State) : (haltSends n s).outer = s.outer :=
  outer_of_works (haltSends_works ..)
@[simp] theorem doseFrameLeft_outer (n : Nat) (s : State) : (doseFrameLeft n s).outer = s.outer :=
  outer_of_works (doseFrameLeft_works ..)
@[simp] theorem boilFrameLeft_outer (s : State) : (boilFrameLeft s).outer = s.outer :=
  outer_of_works (boilFrameLeft_works ..)

/-! ### Updates -/

@[simp] theorem withVessel_outer (v : Vessel) (f : VesselRec → VesselRec) (s : State) :
    (withVessel v f s).outer = s.outer := rfl
@[simp] theorem withSeq_outer (v : Vessel) (f : Sequencer → Sequencer) (s : State) :
    (withSeq v f s).outer = s.outer := rfl
@[simp] theorem withBrew_outer (n : Nat) (f : Brew → Brew) (s : State) : (withBrew n f s).outer = s.outer := rfl
@[simp] theorem withBoil_outer (f : BoilUnit → BoilUnit) (s : State) : (withBoil f s).outer = s.outer := rfl
@[simp] theorem withCast_outer (f : Cast → Cast) (s : State) : (withCast f s).outer = s.outer := rfl
@[simp] theorem withJournal_outer (f : Journal → Journal) (s : State) : (withJournal f s).outer = s.outer := rfl
@[simp] theorem withDuty_outer (f : Duty → Duty) (s : State) : (withDuty f s).outer = s.outer := rfl
@[simp] theorem slots_outer (s : State) (l : List (Option Hold)) : ({ s with slots := l } : State).outer = s.outer := rfl
@[simp] theorem brews_outer (s : State) (l : List (Option Brew)) : ({ s with brews := l } : State).outer = s.outer := rfl
@[simp] theorem tells_outer (s : State) (l : List Owner) : ({ s with tells := l } : State).outer = s.outer := rfl

/-- A fold of steps that each leave the outer state alone leaves it alone. -/
theorem foldl_outer {α : Type} (f : State → α → State) (h : ∀ s a, (f s a).outer = s.outer) (l : List α)
    (s : State) : (l.foldl f s).outer = s.outer := by
  induction l generalizing s with
  | nil => rfl
  | cons a l ih => rw [List.foldl_cons, ih, h]

/-! ### Hold slots -/

@[simp] theorem freeSlot_outer (i : Nat) (s : State) : (freeSlot i s).outer = s.outer := rfl

@[simp] theorem emptySlot_outer (p : Hold → Bool) (s : State) (i : Nat) : (emptySlot p s i).outer = s.outer := by
  unfold emptySlot; repeat' split
  all_goals simp

@[simp] theorem emptySlots_outer (p : Hold → Bool) (s : State) : (emptySlots p s).outer = s.outer :=
  foldl_outer _ (emptySlot_outer p) _ s

@[simp] theorem slotsAtStepEnd_outer (v : Vessel) (n : Nat) (s : State) : (slotsAtStepEnd v n s).outer = s.outer :=
  emptySlots_outer ..
@[simp] theorem slotsAtStepBegin_outer (v : Vessel) (s : State) : (slotsAtStepBegin v s).outer = s.outer :=
  emptySlots_outer ..
@[simp] theorem slotsOfVessel_outer (v : Vessel) (s : State) : (slotsOfVessel v s).outer = s.outer :=
  emptySlots_outer ..

@[simp] theorem holdFrame_outer (f : Frame) (v : Vessel) (r : Nat) (s : State) :
    (holdFrame f v r s).outer = s.outer := by
  unfold holdFrame; split <;> simp

@[simp] theorem expireSlot_outer (i : Nat) (s : State) : (expireSlot i s).outer = s.outer := by
  unfold expireSlot; split <;> simp

/-! ### Drives -/

theorem seqOffer_eq (v : Vessel) (u : UnsentOffer) (s : State) :
    seqOffer v u s =
      ((offerDrive u.row u.demand (.sequencer v) s).1,
        withSeq v (fun q => { q with unsent := afterOffer (offerDrive u.row u.demand (.sequencer v) s).1 u q.unsent })
          (offerDrive u.row u.demand (.sequencer v) s).2) := rfl

@[simp] theorem seqOffer_outer (v : Vessel) (u : UnsentOffer) (s : State) : (seqOffer v u s).2.outer = s.outer := by
  simp [seqOffer_eq]

theorem stepDrive_eq (v : Vessel) (u : UnsentOffer) (s : State) :
    stepDrive v u s =
      ((seqOffer v u s).1,
        if (seqOffer v u s).1 = .noPoint then withSeq v (fun q => { q with noPoint := true }) (seqOffer v u s).2
        else (seqOffer v u s).2) := rfl

@[simp] theorem stepDrive_outer (v : Vessel) (u : UnsentOffer) (s : State) : (stepDrive v u s).2.outer = s.outer := by
  rw [stepDrive_eq]; simp only; split <;> simp

@[simp] theorem transferDrive_outer (v : Vessel) (r : Option Nat) (d : Nat) (s : State) :
    (transferDrive v r d s).outer = s.outer := by
  unfold transferDrive; split <;> simp

@[simp] theorem transferOn_outer (v : Vessel) (st : StepRow) (s : State) : (transferOn v st s).outer = s.outer := by
  simp [transferOn]
@[simp] theorem transferOff_outer (v : Vessel) (st : StepRow) (s : State) : (transferOff v st s).outer = s.outer := by
  simp [transferOff]

@[simp] theorem offerHeat_outer (v : Vessel) (d : Nat) (s : State) : (offerHeat v d s).outer = s.outer := by
  unfold offerHeat
  simp only
  split
  · split <;> simp
  · rfl

@[simp] theorem forceZero_outer (v : Vessel) (s : State) : (forceZero v s).outer = s.outer := by
  unfold forceZero; split <;> simp

@[simp] theorem heatDemand_outer (v : Vessel) (d : Nat) (s : State) : (heatDemand v d s).outer = s.outer := by
  unfold heatDemand; simp only; split <;> simp

@[simp] theorem refreshSync_outer (s : State) (v : Vessel) : (refreshSync s v).outer = s.outer := rfl

/-! ### Steps -/

@[simp] theorem beginStep_outer (v : Vessel) (n : Nat) (s : State) : (beginStep v n s).outer = s.outer := by
  unfold beginStep; simp only; repeat' split
  all_goals simp

@[simp] theorem endStep_outer (v : Vessel) (s : State) : (endStep v s).outer = s.outer := by
  unfold endStep; simp only; split <;> simp

@[simp] theorem finishStep_outer (v : Vessel) (s : State) : (finishStep v s).outer = s.outer := by
  unfold finishStep; simp only; split <;> simp

@[simp] theorem transferInEffect_outer (v : Vessel) (st : StepRow) (s : State) :
    (transferInEffect v st s).outer = s.outer := by
  simp [transferInEffect]

@[simp] theorem openTransfer_outer (v w : Vessel) (st : StepRow) (s : State) :
    (openTransfer v w st s).outer = s.outer := by
  unfold openTransfer; simp only; split <;> simp

@[simp] theorem blockStep_outer (v : Vessel) (r : BlockReason) (s : State) : (blockStep v r s).outer = s.outer := rfl

@[simp] theorem inEffect_outer (v : Vessel) (st : StepRow) (f : Sequencer → Sequencer) (s : State) :
    (inEffect v st f s).outer = s.outer := by
  unfold inEffect; simp only; split <;> simp

@[simp] theorem offerStepFrame_outer (v : Vessel) (st : StepRow) (s : State) :
    (offerStepFrame v st s).2.outer = s.outer := by
  unfold offerStepFrame
  split
  · rename_i row _
    exact stepDrive_outer v { row := row, demand := st.value, ofStep := true } s
  · rfl

@[simp] theorem takeEffect_outer (v : Vessel) (s : State) : (takeEffect v s).2.outer = s.outer := by
  unfold takeEffect
  split
  · rfl
  · rename_i st _
    split
    · split <;> simp
    all_goals try simp
    · split
      · rfl
      · repeat' split
        all_goals simp
    · have e := castAttempt_outer s
      split <;> (rename_i h; rw [h] at e; simpa using e)

@[simp] theorem advance_outer (n : Nat) (v : Vessel) (s : State) : (advance n v s).outer = s.outer := by
  induction n generalizing s with
  | zero => rfl
  | succ n ih =>
    have e := takeEffect_outer v s
    unfold advance
    split
    · rename_i h; rw [h] at e; exact e
    · rename_i h; rw [h] at e
      simp only
      split
      · split
        · split
          · rw [ih]; simpa using e
          · simpa using e
        · simpa using e
      · simpa using e

@[simp] theorem startAt_outer (v : Vessel) (n : Nat) (s : State) : (startAt v n s).outer = s.outer := by
  unfold startAt; simp only; split <;> simp

@[simp] theorem completeStep_outer (v : Vessel) (s : State) : (completeStep v s).outer = s.outer := by
  unfold completeStep; simp only
  split
  · split <;> simp
  · simp

@[simp] theorem becomeIdle_outer (v : Vessel) (s : State) : (becomeIdle v s).outer = s.outer := by simp [becomeIdle]
@[simp] theorem emptyVessel_outer (v : Vessel) (s : State) : (emptyVessel v s).outer = s.outer := rfl

@[simp] theorem advanceBrew_outer (n : Nat) (w : Vessel) (s : State) : (advanceBrew n w s).outer = s.outer := by
  unfold advanceBrew; split <;> simp

@[simp] theorem settleIn_outer (n : Nat) (w : Vessel) (s : State) : (settleIn n w s).outer = s.outer := rfl

@[simp] theorem completeTransfer_outer (v : Vessel) (st : StepRow) (s : State) :
    (completeTransfer v st s).outer = s.outer := by
  unfold completeTransfer; simp only
  split
  · split <;> simp
  · simp

/-! ### Suspension, halts and starts -/

@[simp] theorem suspend_outer (v : Vessel) (s : State) : (suspend v s).outer = s.outer := by
  unfold suspend; simp only; split <;> simp

@[simp] theorem leftSuspended_outer (v : Vessel) (s : State) : (leftSuspended v s).outer = s.outer := by
  unfold leftSuspended; split <;> simp

@[simp] theorem retryStep_outer (v : Vessel) (s : State) : (retryStep v s).outer = s.outer := by
  unfold retryStep; simp only; split <;> simp

@[simp] theorem resumeStep_outer (v : Vessel) (st : StepRow) (s : State) : (resumeStep v st s).outer = s.outer := by
  unfold resumeStep; simp only
  split
  all_goals try simp
  · split <;> simp
  · have e := offerStepFrame_outer v st (withSeq v (fun q => { q with state := .running }) s)
    split <;> (rename_i h; rw [h] at e; simpa using e)

@[simp] theorem resume_outer (v : Vessel) (s : State) : (resume v s).outer = s.outer := by
  unfold resume
  split
  · rfl
  · split <;> simp

@[simp] theorem syncCauses_outer (v : Vessel) (s : State) : (syncCauses v s).outer = s.outer := by
  unfold syncCauses; simp only
  repeat' split
  all_goals simp

@[simp] theorem syncAllCauses_outer (s : State) : (syncAllCauses s).outer = s.outer :=
  foldl_outer _ (fun s v => syncCauses_outer v s) _ s

@[simp] theorem haltStep_outer (v : Vessel) (s : State) : (haltStep v s).outer = s.outer := by
  unfold haltStep; simp only
  repeat' split
  all_goals simp

@[simp] theorem becomeHalted_outer (v : Vessel) (s : State) : (becomeHalted v s).outer = s.outer := by
  simp [becomeHalted]

@[simp] theorem halt_outer (v : Vessel) (r : Bool) (s : State) : (halt v r s).outer = s.outer := by
  unfold halt
  repeat' split
  all_goals simp

@[simp] theorem startList_outer (v : Vessel) (s : State) : (startList v s).outer = s.outer := by simp [startList]

@[simp] theorem continueSeq_outer (v : Vessel) (s : State) : (continueSeq v s).2.outer = s.outer := by
  unfold continueSeq
  split
  · rfl
  · simp only
    repeat' split
    all_goals simp

/-! ### Samples -/

@[simp] theorem offerAndComplete_outer (v : Vessel) (d : Nat) (b : Bool) (s : State) :
    (offerAndComplete v d b s).outer = s.outer := by
  unfold offerAndComplete; simp only
  repeat' split
  all_goals simp

@[simp] theorem heatCompute_outer (v : Vessel) (x y : Int) (d : Nat) (s : State) :
    (heatCompute v x y d s).2.outer = s.outer := rfl

theorem rampSample_eq (v : Vessel) (step : StepRow) (value : Int) (dt : Nat) (s : State) :
    rampSample v step value dt s =
      let m := rampMove (s.seqs.get v).setpoint (s.seqs.get v).rampRemainder step.rate dt step.target value
      let t := withSeq v (fun q => { q with setpoint := some m.1, rampRemainder := m.2 }) s
      let h := heatCompute v m.1 value dt t
      offerAndComplete v h.1 (m.1 == step.target && within step value) h.2 := rfl

@[simp] theorem rampSample_outer (v : Vessel) (st : StepRow) (x : Int) (d : Nat) (s : State) :
    (rampSample v st x d s).outer = s.outer := by simp [rampSample_eq]

@[simp] theorem holdSample_outer (v : Vessel) (st : StepRow) (x : Int) (p : Option Int) (d : Nat) (s : State) :
    (holdSample v st x p d s).outer = s.outer := by
  unfold holdSample; simp only
  repeat' split
  all_goals simp [heatCompute]

@[simp] theorem boilSample_outer (st : StepRow) (x : Int) (p : Option Int) (d : Nat) (s : State) :
    (boilSample st x p d s).outer = s.outer := by
  unfold boilSample
  split
  · rfl
  · simp only
    repeat' split
    all_goals simp

@[simp] theorem workSample_outer (v : Vessel) (e : PointEntry) (s : State) : (workSample v e s).outer = s.outer := by
  unfold workSample
  split
  · simp only
    repeat' split
    all_goals simp
  · rfl

@[simp] theorem pvSample_outer (v : Vessel) (r : Nat) (s : State) : (pvSample v r s).outer = s.outer := by
  unfold pvSample; simp only
  repeat' split
  all_goals simp

@[simp] theorem levelSample_outer (v : Vessel) (r : Nat) (s : State) : (levelSample v r s).outer = s.outer := by
  unfold levelSample; simp only
  repeat' split
  all_goals simp

@[simp] theorem pvExpiry_outer (v : Vessel) (s : State) : (pvExpiry v s).outer = s.outer := by
  unfold pvExpiry; simp only
  split <;> simp

@[simp] theorem reofferUnsent_outer (v : Vessel) (u : UnsentOffer) (s : State) :
    (reofferUnsent v u s).2.outer = s.outer := by
  show (if u.ofStep || transferNames s v u.row then stepDrive v u s else seqOffer v u s).2.outer = s.outer
  split <;> simp

@[simp] theorem reofferAll_outer (v : Vessel) (l : List UnsentOffer) (s : State) :
    (reofferAll v l s).2.outer = s.outer := by
  unfold reofferAll
  suffices ∀ (b : Bool) (s : State),
      (l.foldl (fun a u => ((a.1 || (reofferUnsent v u a.2).1, (reofferUnsent v u a.2).2) : Bool × State)) (b, s)).2.outer
        = s.outer from this false s
  induction l with
  | nil => intro b s; rfl
  | cons u l ih => intro b s; rw [List.foldl_cons, ih]; simp

theorem refreshExpiry_eq (v : Vessel) (s : State) :
    refreshExpiry v s =
      let s1 := withSeq v (fun q => { q with refreshTimer := some s.loopTime }) s
      let heating := heatingStep s1 v && !(s1.seqs.get v).zeroForced
      let kept := (s1.seqs.get v).unsent
      let s2 := if heating then offerHeat v (s1.seqs.get v).lastDemand s1 else s1
      let others := if heating then kept.filter fun u => some u.row != heatRow? s2.tables v else kept
      let r := reofferAll v others s2
      let s3 := if v = .kettle then boilPump r.2 else r.2
      if r.1 then completeStep v s3 else s3 := rfl

@[simp] theorem refreshExpiry_outer (v : Vessel) (s : State) : (refreshExpiry v s).outer = s.outer := by
  rw [refreshExpiry_eq]; simp only
  repeat' split
  all_goals simp

/-! ### Authority -/

@[simp] theorem putAuthority_outer (v : Vessel) (a : Authority) (c : AuthorityCause) (s : State) :
    (putAuthority v a c s).outer = s.outer := by simp [putAuthority]

@[simp] theorem tellCast_outer (v : Vessel) (a : Authority) (s : State) : (tellCast v a s).outer = s.outer := by
  unfold tellCast; simp only
  repeat' split
  all_goals simp

@[simp] theorem changeAuthority_outer (v : Vessel) (a : Authority) (c : AuthorityCause) (s : State) :
    (changeAuthority v a c s).outer = s.outer := by
  unfold changeAuthority; simp only
  repeat' split
  all_goals simp

@[simp] theorem handRequest_outer (v : Vessel) (r : Nat) (s : State) : (handRequest v r s).outer = s.outer := by
  unfold handRequest; simp only
  repeat' split
  all_goals simp

@[simp] theorem autoRequest_outer (v : Vessel) (s : State) : (autoRequest v s).outer = s.outer :=
  changeAuthority_outer ..

@[simp] theorem estop_outer (v : Vessel) (s : State) : (estop v s).outer = s.outer := by
  unfold estop; simp only
  repeat' split
  all_goals simp

@[simp] theorem setLocks_outer (m : List Vessel) (b : Bool) (s : State) : (setLocks m b s).outer = s.outer :=
  foldl_outer (fun s v => withVessel v (fun r => { r with supervisorLock := b }) s) (fun _ _ => rfl) m s

/-! ### Brews -/

@[simp] theorem openBrew_outer (f : BrewFields) (s : State) : (openBrew f s).2.2.outer = s.outer := by
  unfold openBrew; simp only
  repeat' split
  all_goals simp

@[simp] theorem assignBrew_outer (n : Nat) (s : State) : (assignBrew n s).2.outer = s.outer := by
  unfold assignBrew; simp only
  repeat' split
  all_goals simp

@[simp] theorem haltAll_outer (l : List Vessel) (r : Bool) (s : State) :
    (l.foldl (fun s v => halt v r s) s).outer = s.outer := foldl_outer _ (fun s v => halt_outer v r s) l s

@[simp] theorem abandonBrew_outer (n : Nat) (s : State) : (abandonBrew n s).2.outer = s.outer := by
  unfold abandonBrew; simp only
  repeat' split
  all_goals simp

@[simp] theorem releaseBrew_outer (n : Nat) (s : State) : (releaseBrew n s).2.outer = s.outer := by
  unfold releaseBrew
  repeat' split
  all_goals simp

@[simp] theorem leaveVessel_outer (n : Nat) (v : Vessel) (s : State) : (leaveVessel n v s).outer = s.outer := by
  unfold leaveVessel; simp only
  split <;> simp

@[simp] theorem armIfIdle_outer (w : Vessel) (s : State) : (armIfIdle w s).outer = s.outer := rfl
@[simp] theorem clearOut_outer (v : Vessel) (s : State) : (clearOut v s).outer = s.outer := by simp [clearOut]
@[simp] theorem clearSource_outer (v w : Vessel) (n : Nat) (s : State) : (clearSource v w n s).outer = s.outer := by
  simp [clearSource]
@[simp] theorem clearDestination_outer (v u : Vessel) (n : Nat) (s : State) :
    (clearDestination v u n s).outer = s.outer := by simp [clearDestination]

@[simp] theorem clearVessel_outer (v : Vessel) (s : State) : (clearVessel v s).2.outer = s.outer := by
  unfold clearVessel; simp only
  repeat' split
  all_goals simp

@[simp] theorem resetVessels_outer (s : State) : (resetVessels s).outer = s.outer := by
  unfold resetVessels; simp only; rw [endTrigger_outer, emptySlots_outer, haltAll_outer]

/-! ### Notices between the blocks, and the end of a command -/

@[simp] theorem drainTells_outer (n : Nat) (s : State) : (drainTells n s).outer = s.outer := by
  induction n generalizing s with
  | zero => rfl
  | succ n ih =>
    unfold drainTells
    split
    · rfl
    · simp only [ih]
      split <;> simp

/-- The end of a command leaves the outer state alone. -/
@[simp] theorem settle_outer (s : State) : (settle s).outer = s.outer := by
  unfold settle
  rw [tells_outer, outer_of_bare (syncConditions_bare _), foldl_outer _ refreshSync_outer, drainTells_outer]

end Sys2Proof.Machine
end

