-- ==== Sys2Proof/Laws/Kept.lean ====
section
/-! SUPPORT. The kept laws: what the Management Agent, the tables, the Journal Port and the Loop Port leave alone of
the pins, the mode, the address, loop time, the waiting commands and the journal store. -/

namespace Sys2Proof.Machine

variable {s t : State}

/-- The parts of the state that only resets, pins and time change, and the waiting commands. -/
structure Fixed where
  pins           : Pins
  mode           : Mode
  stationAddress : Byte
  relayOpen      : Bool
  loopTime       : LoopTime
  pending        : List Instr

def State.fixed (s : State) : Fixed :=
  { pins := s.pins, mode := s.mode, stationAddress := s.stationAddress, relayOpen := s.relayOpen
    loopTime := s.loopTime, pending := s.pending }

/-- The fixed parts and the journal store. -/
def State.kept (s : State) : Fixed × Store := (s.fixed, s.store)

theorem kept_of_outer (h : t.outer = s.outer) : t.kept = s.kept := by
  have e : ∀ u : State, u.kept = u.outer.kept := fun _ => rfl
  rw [e t, e s, h]

theorem kept_of_works (h : t.works = s.works) : t.kept = s.kept := kept_of_outer (outer_of_works h)

theorem fixed_of_kept (h : t.kept = s.kept) : t.fixed = s.fixed := congrArg Prod.fst h

theorem foldl_kept {α : Type} (f : State → α → State) (h : ∀ s a, (f s a).kept = s.kept) (l : List α)
    (s : State) : (l.foldl f s).kept = s.kept := by
  induction l generalizing s with
  | nil => rfl
  | cons a l ih => rw [List.foldl_cons, ih, h]

/-! ### Lifted laws -/

@[simp] theorem latch_kept (c : Cond) (s : State) : (latch c s).kept = s.kept := kept_of_works (latch_works ..)
@[simp] theorem raise_kept (k : EventKind) (u : Subject) (b : Option Nat) (a : EventArg) (s : State) :
    (raise k u b a s).kept = s.kept := kept_of_works (raise_works ..)
@[simp] theorem raiseVessel_kept (k : EventKind) (v : Vessel) (a : EventArg) (s : State) :
    (raiseVessel k v a s).kept = s.kept := kept_of_works (raiseVessel_works ..)
@[simp] theorem raiseCast_kept (k : EventKind) (a : EventArg) (s : State) :
    (raiseCast k a s).kept = s.kept := kept_of_works (raiseCast_works ..)
@[simp] theorem offer_kept (f : Frame) (o : Owner) (s : State) : (offer f o s).2.kept = s.kept :=
  kept_of_works (offer_works ..)
@[simp] theorem reply_kept (d g c : Byte) (r : Result) (data : List Byte) (s : State) :
    (reply d g c r data s).2.kept = s.kept := offer_kept ..
@[simp] theorem answer_kept (c : Nat) (rq : Request) (r : Result) (data : List Byte) (s : State) :
    (answer c rq r data s).kept = s.kept := reply_kept ..
@[simp] theorem answerPage_kept (c : Nat) (rq : Request) (r : Result) (p : Nat) (data : List Byte) (s : State) :
    (answerPage c rq r p data s).kept = s.kept := reply_kept ..
@[simp] theorem startNext_kept (s : State) : (startNext s).kept = s.kept :=
  kept_of_works (works_of_bare (startNext_bare s))
@[simp] theorem attention_kept (s : State) : (attention s).kept = s.kept :=
  kept_of_works (works_of_bare (bare_of_rest (attention_rest s) (attention_seqs s)))
@[simp] theorem settle_kept (s : State) : (settle s).kept = s.kept := kept_of_outer (settle_outer s)
@[simp] theorem syncCauses_kept (v : Vessel) (s : State) : (syncCauses v s).kept = s.kept :=
  kept_of_outer (syncCauses_outer ..)
@[simp] theorem syncAllCauses_kept (s : State) : (syncAllCauses s).kept = s.kept :=
  kept_of_outer (syncAllCauses_outer ..)

@[simp] theorem withEntry_kept (r : Nat) (f : PointEntry → PointEntry) (s : State) :
    (withEntry r f s).kept = s.kept := rfl
@[simp] theorem withAgent_kept (f : Agent → Agent) (s : State) : (withAgent f s).kept = s.kept := rfl
@[simp] theorem withLoop_kept (f : LoopPort → LoopPort) (s : State) : (withLoop f s).kept = s.kept := rfl
@[simp] theorem withDuty_kept (f : Duty → Duty) (s : State) : (withDuty f s).kept = s.kept := rfl
@[simp] theorem withJournal_kept (f : Journal → Journal) (s : State) : (withJournal f s).kept = s.kept := rfl
@[simp] theorem withCast_kept (f : Cast → Cast) (s : State) : (withCast f s).kept = s.kept := rfl
@[simp] theorem withBrew_kept (n : Nat) (f : Brew → Brew) (s : State) : (withBrew n f s).kept = s.kept := rfl
@[simp] theorem tables_kept (s : State) (x : Tables) : ({ s with tables := x } : State).kept = s.kept := rfl
@[simp] theorem brews_kept (s : State) (x : List (Option Brew)) : ({ s with brews := x } : State).kept = s.kept := rfl

/-! ### The tables -/

@[simp] theorem putValid_kept (n r : Nat) (c : Cell) (s : State) : (putValid n r c s).kept = s.kept := rfl

@[simp] theorem pointLost_kept (r : Nat) (s : State) : (pointLost r s).kept = s.kept := by
  have e : ∀ u : State, (vessels.foldl (dropVesselRow r) u).kept = u.kept :=
    foldl_kept _ (fun s v => by unfold dropVesselRow; split <;> rfl) _
  unfold pointLost; simp only
  split
  · rw [putValid_kept, e]; rfl
  · rw [e]; rfl

@[simp] theorem dropRecipes_kept (u : Nat → Bool) (l : List Nat) (s : State) :
    (l.foldl (dropRecipe u) s).kept = s.kept :=
  foldl_kept _ (fun s r => by unfold dropRecipe; split <;> rfl) _ s

@[simp] theorem invalidate_kept (n r : Nat) (s : State) : (invalidate n r s).kept = s.kept := by
  unfold invalidate; simp only
  repeat' split
  all_goals simp

@[simp] theorem validate_kept (n r : Nat) (s : State) : (validate n r s).2.kept = s.kept := by
  unfold validate; simp only
  repeat' split
  all_goals simp

@[simp] theorem writeBankCell_kept (r f : Nat) (c : Cell) (s : State) : (writeBankCell r f c s).2.kept = s.kept := by
  unfold writeBankCell
  repeat' split
  all_goals rfl

@[simp] theorem writeCell_kept (n r f : Nat) (c : Cell) (s : State) : (writeCell n r f c s).2.kept = s.kept := by
  have e := validate_kept n r s
  unfold writeCell
  split
  · rfl
  · split
    · rfl
    · split
      · rfl
      · split
        · simp
        · split
          · split
            · exact e
            · simp
          · simp only [tables_kept, invalidate_kept]

theorem writeAtPointer_eq (w : Window) (a : WriteTally × State) (c : Cell) :
    (writeAtPointer w a c).2 =
      let p := a.2.agent.writePtr
      let x := writeCell w.table p.row p.field c a.2
      let t := withAgent (fun g => { g with writePtr := w.next p }) x.2
      match x.1 with
      | none => t
      | some _ => latch .tableReject t := by
  unfold writeAtPointer; simp only; split <;> simp_all

@[simp] theorem takeCell_kept (w : Window) (a : WriteTally × State) (c : Cell) :
    (takeCell w a c).2.kept = a.2.kept := by
  show (syncConditions (writeAtPointer w a c).2).kept = a.2.kept
  rw [kept_of_works (works_of_bare (syncConditions_bare _)), writeAtPointer_eq]
  simp only
  split <;> simp

@[simp] theorem writeCells_kept (w : Window) (l : List Cell) (s : State) : (writeCells w l s).2.kept = s.kept := by
  have e : ∀ (l : List Cell) (a : WriteTally × State), (l.foldl (takeCell w) a).2.kept = a.2.kept := by
    intro l
    induction l with
    | nil => intro a; rfl
    | cons c l ih => intro a; rw [List.foldl_cons, ih, takeCell_kept]
  show (syncAllCauses (l.foldl (takeCell w) ({ met := 0, written := 0, first := none }, s)).2).kept = s.kept
  rw [syncAllCauses_kept, e]

@[simp] theorem readCells_kept (w : Window) (n : Nat) (s : State) : (readCells w n s).2.kept = s.kept := by
  induction n generalizing s with
  | zero => rfl
  | succ n ih =>
    show (readCells w n (withAgent (fun g => { g with readPtr := w.next s.agent.readPtr }) s)).2.kept = s.kept
    rw [ih]; rfl

/-! ### The Journal Port and the Duty Accountant -/

theorem offerRecord_kept {d : Draft} (h : offerRecord d s = some t) : t.kept = s.kept :=
  kept_of_works (offerRecord_works h)

theorem offerTariff_kept (h : offerTariff s = some t) : t.kept = s.kept := by
  unfold offerTariff at h
  rw [Option.map_eq_some_iff] at h
  obtain ⟨u, hu, rfl⟩ := h
  rw [withDuty_kept, offerRecord_kept hu]

@[simp] theorem startRead_works (s : State) : (startRead s).works = s.works := by
  unfold startRead; split <;> rfl

@[simp] theorem startRead_kept (s : State) : (startRead s).kept = s.kept := by
  unfold startRead; split <;> rfl

@[simp] theorem freeAfterWrite_kept (s : State) : (freeAfterWrite s).kept = s.kept := by
  simp [freeAfterWrite]
@[simp] theorem failQueue_kept (s : State) : (failQueue s).kept = s.kept := by simp [failQueue]

@[simp] theorem beginWrite_kept (s : State) : (beginWrite s).kept = s.kept := by
  unfold beginWrite
  repeat' split
  all_goals simp

@[simp] theorem writeIfPossible_kept (s : State) : (writeIfPossible s).kept = s.kept := by
  unfold writeIfPossible; split <;> simp

@[simp] theorem badPosition_kept (s : State) : (badPosition s).kept = s.kept := by
  unfold badPosition; simp only; split <;> simp

@[simp] theorem popRecord_kept (s : State) : (popRecord s).kept = s.kept := rfl

@[simp] theorem sendDeferred_kept (c : Nat) (r : Result) (d : List Byte) (s : State) :
    (sendDeferred c r d s).kept = s.kept := by
  unfold sendDeferred; split
  · simp
  · rfl

@[simp] theorem deferReply_kept (rq : Request) (c : Nat) (s : State) : (deferReply rq c s).kept = s.kept := rfl

@[simp] theorem takeCharge_kept (n : Nat) (s : State) : (takeCharge n s).kept = s.kept := by
  unfold takeCharge; split <;> simp

@[simp] theorem activateTariff_kept (i : TariffImage) (q : Seq) (s : State) :
    (activateTariff i q s).kept = s.kept := by
  unfold activateTariff; simp only; split <;> rfl

@[simp] theorem endClosing_kept (q : Option Seq) (s : State) : (endClosing q s).kept = s.kept := by
  unfold endClosing; split <;> simp

@[simp] theorem castClosed_kept (s : State) : (castClosed s).kept = s.kept := by
  have e1 : ∀ n u, (closeOccupancy n u).kept = u.kept := by
    intro n u
    unfold closeOccupancy
    split
    · exact kept_of_outer (by simp)
    · rfl
  unfold castClosed
  split
  · rfl
  · simp only [takeCharge_kept, raiseCast_kept, e1]
    split
    · rw [kept_of_outer (finishStep_outer ..)]; rfl
    · rfl

@[simp] theorem recordComplete_kept (d : Draft) (q : Seq) (s : State) : (recordComplete d q s).kept = s.kept := by
  have e : (castOpened s).kept = s.kept := by
    unfold castOpened
    split
    · rfl
    · have e2 : ∀ u, (castStepInEffect u).kept = u.kept := by
        intro u; unfold castStepInEffect; split <;> rfl
      simp only
      repeat' split
      all_goals
        first
        | rfl
        | (first | rw [kept_of_works (enterCharging_works _)] | rw [kept_of_works (enterSettling_works _)]
                 | rw [kept_of_works (drivePump_works ..), withCast_kept] | rw [kept_of_works (pausedEntry_works _)]
           rw [kept_of_works (reviewPauses_works _), e2, raiseCast_kept])
  unfold recordComplete
  split
  · simp [tariffComplete]
  · exact e
  · simp
  · simp [settledComplete]
  · unfold periodComplete; simp only; split <;> simp
  · simp [releaseComplete]

@[simp] theorem mountComplete_kept (s : State) : (mountComplete s).kept = s.kept := by
  unfold mountComplete; simp only
  repeat' split
  all_goals simp

/-! ### Requests -/

@[simp] theorem leaveConds_kept (s : State) : (leaveConds s).kept = s.kept := rfl

theorem doStatusRead_eq (p : Nat) (rq : Request) (s : State) :
    doStatusRead p rq s =
      let x := reply rq.source rq.tag 1 .ok (pageOf p (statusData s)) s
      if x.1.taken && p == 0 then
        withAgent (fun a => { a with acked := s.agent.conditions, reported := s.agent.conditions }) x.2
      else x.2 := rfl

@[simp] theorem doStatusRead_kept (p : Nat) (rq : Request) (s : State) : (doStatusRead p rq s).kept = s.kept := by
  rw [doStatusRead_eq]; simp only; split <;> simp

@[simp] theorem doClearConditions_kept (l : List Cond) (rq : Request) (s : State) :
    (doClearConditions l rq s).kept = s.kept := by
  unfold doClearConditions; simp only; split <;> simp

@[simp] theorem doTableWindow_kept (w : Window) (rq : Request) (s : State) :
    (doTableWindow w rq s).kept = s.kept := by simp [doTableWindow]

@[simp] theorem doTableWrite_kept (l : List Cell) (rq : Request) (s : State) :
    (doTableWrite l rq s).kept = s.kept := by
  unfold doTableWrite
  split
  · simp
  · rename_i w _
    split
    · simp
    · have e := writeCells_kept w l s
      simp only [answer_kept, withAgent_kept]
      exact e

@[simp] theorem doTableRead_kept (n : Nat) (rq : Request) (s : State) : (doTableRead n rq s).kept = s.kept := by
  unfold doTableRead
  split
  · simp
  · rename_i w _
    split
    · simp
    · have e := readCells_kept w n s
      simp only [answer_kept, withAgent_kept]
      exact e

@[simp] theorem doPartConfig_kept (c : PartConfig) (rq : Request) (s : State) :
    (doPartConfig c rq s).kept = s.kept := by simp [doPartConfig]

@[simp] theorem doResetVessels_kept (rq : Request) (s : State) : (doResetVessels rq s).kept = s.kept := by
  simp [doResetVessels, kept_of_outer (resetVessels_outer s)]

@[simp] theorem doBrewOpen_kept (f : BrewFields) (rq : Request) (s : State) : (doBrewOpen f rq s).kept = s.kept := by
  have e := kept_of_outer (openBrew_outer f s)
  unfold doBrewOpen; simp only [answer_kept]; exact e

@[simp] theorem doBrewAssign_kept (n : Nat) (rq : Request) (s : State) : (doBrewAssign n rq s).kept = s.kept := by
  have e := kept_of_outer (assignBrew_outer n s)
  unfold doBrewAssign; simp only [answer_kept]; exact e

@[simp] theorem doBrewAbandon_kept (n : Nat) (rq : Request) (s : State) : (doBrewAbandon n rq s).kept = s.kept := by
  have e := kept_of_outer (abandonBrew_outer n s)
  unfold doBrewAbandon; simp only [answer_kept]; exact e

@[simp] theorem doBrewRelease_kept (n : Nat) (rq : Request) (s : State) : (doBrewRelease n rq s).kept = s.kept := by
  have e := kept_of_outer (releaseBrew_outer n s)
  unfold doBrewRelease; simp only [answer_kept]; exact e

@[simp] theorem doBrewRead_kept (n p : Nat) (rq : Request) (s : State) : (doBrewRead n p rq s).kept = s.kept := by
  unfold doBrewRead; split <;> simp

@[simp] theorem doVesselClear_kept (v : Vessel) (rq : Request) (s : State) :
    (doVesselClear v rq s).kept = s.kept := by
  have e := kept_of_outer (clearVessel_outer v s)
  unfold doVesselClear; simp only [answer_kept]; exact e

@[simp] theorem refuseStart_kept (v : Vessel) (r : Result) (rq : Request) (s : State) :
    (refuseStart v r rq s).kept = s.kept := by simp [refuseStart]

@[simp] theorem startList_kept (v : Vessel) (s : State) : (startList v s).kept = s.kept :=
  kept_of_outer (startList_outer ..)

@[simp] theorem doVesselStart_kept (v : Vessel) (rq : Request) (s : State) :
    (doVesselStart v rq s).kept = s.kept := by
  unfold doVesselStart
  repeat' split
  all_goals simp

@[simp] theorem doGroupStart_kept (g : Nat) (rq : Request) (s : State) : (doGroupStart g rq s).kept = s.kept := by
  unfold doGroupStart; simp only [answer_kept]
  exact foldl_kept _ (fun s v => startList_kept v s) _ s

@[simp] theorem doVesselHalt_kept (v : Vessel) (rq : Request) (s : State) : (doVesselHalt v rq s).kept = s.kept := by
  unfold doVesselHalt; split
  · simp
  · simp only [answer_kept]; exact kept_of_outer (halt_outer ..)

@[simp] theorem doContinue_kept (v : Vessel) (rq : Request) (s : State) : (doContinue v rq s).kept = s.kept := by
  have e := kept_of_outer (continueSeq_outer v s)
  unfold doContinue; simp only [answer_kept]; exact e

@[simp] theorem doAuthority_kept (v : Vessel) (a : Authority) (rq : Request) (s : State) :
    (doAuthority v a rq s).kept = s.kept := by
  unfold doAuthority; simp only; split
  · simp
  · simp only [answer_kept]; exact kept_of_outer (changeAuthority_outer ..)

@[simp] theorem doLock_kept (m : List Vessel) (b : Bool) (rq : Request) (s : State) :
    (doLock m b rq s).kept = s.kept := by
  unfold doLock; simp only [answer_kept]; exact kept_of_outer (setLocks_outer ..)

@[simp] theorem freeSlot_kept (i : Nat) (s : State) : (freeSlot i s).kept = s.kept := rfl

@[simp] theorem doRelease_kept (i : Nat) (rq : Request) (s : State) : (doRelease i rq s).kept = s.kept := by
  unfold doRelease
  split
  · simp
  · rename_i h _
    have e := offer_kept h.released .guardUnit s
    simp only
    split <;> (simp only [answer_kept, freeSlot_kept]; exact e)

@[simp] theorem doDiscard_kept (i : Nat) (rq : Request) (s : State) : (doDiscard i rq s).kept = s.kept := by
  unfold doDiscard; split <;> simp

@[simp] theorem doCastEnd_kept (rq : Request) (s : State) : (doCastEnd rq s).kept = s.kept := by
  unfold doCastEnd; split
  · simp only [answer_kept]; exact kept_of_works (endTrigger_works ..)
  · simp

@[simp] theorem doCastRead_kept (p : Nat) (rq : Request) (s : State) : (doCastRead p rq s).kept = s.kept := by
  unfold doCastRead; split <;> simp

@[simp] theorem doCastSettle_kept (c v g : Nat) (rq : Request) (s : State) :
    (doCastSettle c v g rq s).kept = s.kept := by
  unfold doCastSettle
  split
  · split
    · unfold settleOrphan; simp only
      split
      · rename_i h
        rw [deferReply_kept, kept_of_works (addCharge_works ..), offerRecord_kept h]
      · simp
    · simp
  · simp

@[simp] theorem doPeriodClose_kept (y : Bool) (rq : Request) (s : State) : (doPeriodClose y rq s).kept = s.kept := by
  unfold doPeriodClose
  split
  · unfold acceptClose; simp only
    split
    · simp
    · rename_i u h
      simp only [deferReply_kept, withDuty_kept]
      split
      · split
        · rename_i h2; rw [withDuty_kept, offerTariff_kept h2, offerRecord_kept h]
        · exact offerRecord_kept h
      · exact offerRecord_kept h
  · simp

@[simp] theorem doDutyRead_kept (rq : Request) (s : State) : (doDutyRead rq s).kept = s.kept := by
  unfold doDutyRead; split <;> simp

@[simp] theorem doJournalRead_kept (q : Seq) (n p : Nat) (rq : Request) (s : State) :
    (doJournalRead q n p rq s).kept = s.kept := by
  unfold doJournalRead
  repeat' split
  all_goals simp

@[simp] theorem doJournalRelease_kept (q : Seq) (rq : Request) (s : State) :
    (doJournalRelease q rq s).kept = s.kept := by
  unfold doJournalRelease
  split
  · split
    · rename_i h; rw [deferReply_kept, offerRecord_kept h]
    · simp
  · simp

@[simp] theorem doJournalRetry_kept (rq : Request) (s : State) : (doJournalRetry rq s).kept = s.kept := by
  have e : (retryWrite s).kept = s.kept := by unfold retryWrite; split <;> simp
  unfold doJournalRetry; split
  · simp [e]
  · simp

@[simp] theorem queueRequest_kept (q : Queued) (s : State) : (queueRequest q s).kept = s.kept := by
  unfold queueRequest; split <;> simp

/-- A request command keeps what its service keeps (R170). -/
theorem onRequest_kept (q : Queued) (f : State → State) (h : ∀ s, (f s).kept = s.kept) (s : State) :
    (onRequest q f s).kept = s.kept := by
  unfold onRequest
  split
  · rw [settle_kept]
    split
    · exact h s
    · split
      · rw [h]; rfl
      · simp
  · rfl

/-! ### Samples and notices -/

@[simp] theorem deliverVessel_kept (r : Nat) (s : State) (v : Vessel) : (deliverVessel r s v).kept = s.kept := by
  unfold deliverVessel; simp only
  repeat' split
  all_goals first
    | rfl
    | (rw [kept_of_outer (levelSample_outer ..), kept_of_outer (pvSample_outer ..)])
    | exact kept_of_outer (levelSample_outer ..)
    | exact kept_of_outer (pvSample_outer ..)

@[simp] theorem deliverSample_kept (r : Nat) (s : State) : (deliverSample r s).kept = s.kept := by
  unfold deliverSample
  rw [kept_of_works (castSample_works ..)]
  exact foldl_kept _ (deliverVessel_kept r) _ s

@[simp] theorem takeItem_kept (a : Byte) (s : State) (i : SampleItem) : (takeItem a s i).kept = s.kept := by
  unfold takeItem
  repeat' split
  all_goals simp

@[simp] theorem takeSample_kept (f : Frame) (s : State) : (takeSample f s).kept = s.kept :=
  foldl_kept _ (takeItem_kept f.source) _ s

@[simp] theorem staleExpired_kept (r : Nat) (s : State) : (staleExpired r s).kept = s.kept := by
  unfold staleExpired
  rw [kept_of_works (castExpiry_works ..)]
  rw [foldl_kept _ (fun s v => by
    unfold expireVessel; split
    · exact kept_of_outer (pvExpiry_outer ..)
    · rfl)]
  rfl

@[simp] theorem takeNotice_kept (f : Frame) (s : State) : (takeNotice f s).kept = s.kept := by
  have e : ∀ v r c, (panelNotice v r c s).kept = s.kept := by
    intro v r c
    cases c
    · exact kept_of_outer (handRequest_outer ..)
    · exact kept_of_outer (autoRequest_outer ..)
    · exact kept_of_outer (estop_outer ..)
    · exact kept_of_outer (continueSeq_outer ..)
    · rfl
  unfold takeNotice
  split
  · simp only
    split
    · exact e ..
    · split
      · exact kept_of_works (strokeDone_works s)
      · rfl
    · rfl
  · rfl

/-! ### Frames -/

@[simp] theorem frameError_kept (s : State) : (frameError s).kept = s.kept := by simp [frameError]

@[simp] theorem enterTransit_kept (f : Frame) (s : State) : (enterTransit f s).kept = s.kept := by
  unfold enterTransit; split <;> simp

@[simp] theorem guardFrame_kept (f : Frame) (s : State) : (guardFrame f s).kept = s.kept := by
  unfold guardFrame
  split
  all_goals try simp
  exact kept_of_outer (holdFrame_outer ..)

@[simp] theorem forwardFrame_kept (f : Frame) (s : State) : (forwardFrame f s).kept = s.kept := by
  unfold forwardFrame
  repeat' split
  all_goals simp

@[simp] theorem consumeFrame_kept (f : Frame) (s : State) : (consumeFrame f s).kept = s.kept := by
  unfold consumeFrame
  repeat' split
  all_goals simp

@[simp] theorem linkUp_kept (s : State) : (linkUp s).kept = s.kept := by
  unfold linkUp; split <;> simp

@[simp] theorem frameArrived_kept (f : Frame) (s : State) : (frameArrived f s).kept = s.kept := by
  unfold frameArrived; simp only
  repeat' split
  all_goals simp

@[simp] theorem receptionStep_kept (r : Reception) (s : State) : (receptionStep r s).kept = s.kept := by
  cases r <;> simp [receptionStep]

@[simp] theorem truncate_kept (s : State) : (truncate s).kept = s.kept := by
  unfold truncate; split <;> simp

@[simp] theorem restartLink_kept (s : State) : (restartLink s).kept = s.kept := rfl

@[simp] theorem receiveCharacter_kept (c : Character) (s : State) : (receiveCharacter c s).kept = s.kept := by
  unfold receiveCharacter; simp only
  repeat' split
  all_goals simp

@[simp] theorem receiveFrame_kept (l : List Byte) (s : State) : (receiveFrame l s).kept = s.kept := by
  simp [receiveFrame]

@[simp] theorem frameSent_kept (s : State) : (frameSent s).kept = s.kept := by
  unfold frameSent; split <;> simp

/-! ### Commands -/

theorem whenActive_kept (f : State → State) (h : ∀ s, (f s).kept = s.kept) (s : State) :
    (whenActive f s).kept = s.kept := by
  unfold whenActive; split
  · rw [settle_kept, h]
  · rfl

@[simp] theorem linkExpired_kept (s : State) : (linkExpired s).kept = s.kept := by simp [linkExpired]

@[simp] theorem powerFailEffect_kept (s : State) : (powerFailEffect s).kept = s.kept := by
  simp [powerFailEffect, kept_of_works (castPowerFail_works _)]

@[simp] theorem reportExpiry_kept (s : State) : (reportExpiry s).kept = s.kept := by
  have e : ∀ u, (reportEvents u).kept = u.kept := by
    intro u; unfold reportEvents; split <;> simp
  unfold reportExpiry; simp only [e]
  split <;> simp

@[simp] theorem reofferClose_kept (s : State) : (reofferClose s).kept = s.kept := by
  unfold reofferClose; split
  · exact kept_of_works (offerClose_works ..)
  · rfl

@[simp] theorem firstActivate_kept (s : State) : (firstActivate s).kept = s.kept := by
  unfold firstActivate; split
  · rename_i h; rw [withDuty_kept, offerTariff_kept h]
  · rfl

end Sys2Proof.Machine
end

