-- ==== Sys2Proof/Laws/Capacity.lean ====
section
/-! SUPPORT. The capacity laws: every operation keeps each buffer, queue and table within its room. -/

namespace Sys2Proof.Machine

variable {s t : State}

/-! ### Updates of one record -/

@[simp] theorem withVessel_cap (v : Vessel) (f : VesselRec → VesselRec) (h : Capacity s) :
    Capacity (withVessel v f s) := ⟨h.1, h.2, h.3, h.4, h.5, h.6, h.7, h.8, h.9, h.10, h.11, h.12, h.13⟩
@[simp] theorem withSeq_cap (v : Vessel) (f : Sequencer → Sequencer) (h : Capacity s) :
    Capacity (withSeq v f s) := ⟨h.1, h.2, h.3, h.4, h.5, h.6, h.7, h.8, h.9, h.10, h.11, h.12, h.13⟩
@[simp] theorem withCast_cap (f : Cast → Cast) (h : Capacity s) : Capacity (withCast f s) :=
  ⟨h.1, h.2, h.3, h.4, h.5, h.6, h.7, h.8, h.9, h.10, h.11, h.12, h.13⟩
@[simp] theorem withPitch_cap (f : PitchPart → PitchPart) (h : Capacity s) : Capacity (withPitch f s) :=
  ⟨h.1, h.2, h.3, h.4, h.5, h.6, h.7, h.8, h.9, h.10, h.11, h.12, h.13⟩
@[simp] theorem withDuty_cap (f : Duty → Duty) (h : Capacity s) : Capacity (withDuty f s) :=
  ⟨h.1, h.2, h.3, h.4, h.5, h.6, h.7, h.8, h.9, h.10, h.11, h.12, h.13⟩
@[simp] theorem castMeter_cap (x : CastMeter) (h : Capacity s) : Capacity { s with castMeter := x } :=
  ⟨h.1, h.2, h.3, h.4, h.5, h.6, h.7, h.8, h.9, h.10, h.11, h.12, h.13⟩
@[simp] theorem tables_cap (x : Tables) (h : Capacity s) : Capacity { s with tables := x } :=
  ⟨h.1, h.2, h.3, h.4, h.5, h.6, h.7, h.8, h.9, h.10, h.11, h.12, h.13⟩
@[simp] theorem store_cap (x : Store) (h : Capacity s) : Capacity { s with store := x } :=
  ⟨h.1, h.2, h.3, h.4, h.5, h.6, h.7, h.8, h.9, h.10, h.11, h.12, h.13⟩
@[simp] theorem pins_cap (x : Pins) (h : Capacity s) : Capacity { s with pins := x } :=
  ⟨h.1, h.2, h.3, h.4, h.5, h.6, h.7, h.8, h.9, h.10, h.11, h.12, h.13⟩
@[simp] theorem tells_cap (x : List Owner) (h : Capacity s) : Capacity { s with tells := x } :=
  ⟨h.1, h.2, h.3, h.4, h.5, h.6, h.7, h.8, h.9, h.10, h.11, h.12, h.13⟩
@[simp] theorem pending_cap (x : List Instr) (h : Capacity s) : Capacity { s with pending := x } :=
  ⟨h.1, h.2, h.3, h.4, h.5, h.6, h.7, h.8, h.9, h.10, h.11, h.12, h.13⟩
@[simp] theorem loopTime_cap (x : LoopTime) (h : Capacity s) : Capacity { s with loopTime := x } :=
  ⟨h.1, h.2, h.3, h.4, h.5, h.6, h.7, h.8, h.9, h.10, h.11, h.12, h.13⟩

@[simp] theorem withBrew_cap (n : Nat) (f : Brew → Brew) (h : Capacity s) : Capacity (withBrew n f s) :=
  ⟨h.1, h.2, h.3, h.4, h.5, h.6, by simpa using h.7, h.8, h.9, h.10, h.11, h.12, h.13⟩
@[simp] theorem withEntry_cap (r : Nat) (f : PointEntry → PointEntry) (h : Capacity s) : Capacity (withEntry r f s) :=
  ⟨h.1, h.2, h.3, h.4, by simpa using h.5, h.6, h.7, h.8, h.9, h.10, h.11, h.12, h.13⟩
@[simp] theorem withBoilRecord_cap (n : Nat) (f : BoilRecord → BoilRecord) (h : Capacity s) :
    Capacity (withBoilRecord n f s) := withBrew_cap _ _ h
@[simp] theorem setSlot_cap (i : Nat) (x : Option Hold) (h : Capacity s) :
    Capacity { s with slots := s.slots.set i x } :=
  ⟨h.1, h.2, h.3, h.4, h.5, by simpa using h.6, h.7, h.8, h.9, h.10, h.11, h.12, h.13⟩
@[simp] theorem setBrew_cap (i : Nat) (x : Option Brew) (h : Capacity s) :
    Capacity { s with brews := s.brews.set i x } :=
  ⟨h.1, h.2, h.3, h.4, h.5, h.6, by simpa using h.7, h.8, h.9, h.10, h.11, h.12, h.13⟩

@[simp] theorem withBoil_cap (f : BoilUnit → BoilUnit) (h : Capacity s)
    (hf : (f s.boil).sendQueue.length ≤ s.boil.sendQueue.length) : Capacity (withBoil f s) :=
  ⟨h.1, h.2, h.3, h.4, h.5, h.6, h.7, le_trans hf h.8, h.9, h.10, h.11, h.12, h.13⟩

@[simp] theorem withJournal_cap (f : Journal → Journal) (h : Capacity s)
    (hf : (f s.journal).queue.length ≤ s.journal.queue.length) : Capacity (withJournal f s) :=
  ⟨h.1, h.2, h.3, h.4, h.5, h.6, h.7, h.8, le_trans hf h.9, h.10, h.11, h.12, h.13⟩

@[simp] theorem withAgent_cap (f : Agent → Agent) (h : Capacity s)
    (h1 : (f s.agent).requests.length ≤ s.agent.requests.length)
    (h2 : (f s.agent).events.length ≤ s.agent.events.length) : Capacity (withAgent f s) :=
  ⟨h.1, h.2, h.3, h.4, h.5, h.6, h.7, h.8, h.9, le_trans h1 h.10, le_trans h2 h.11, h.12, h.13⟩

@[simp] theorem withLoop_cap (f : LoopPort → LoopPort) (h : Capacity s)
    (h0 : (f s.loop).rx = s.loop.rx) (h1 : (f s.loop).frameErrors ≤ s.loop.frameErrors)
    (h2 : (f s.loop).transit.length ≤ s.loop.transit.length)
    (h3 : (f s.loop).queue = s.loop.queue)
    (h4 : (f s.loop).port = .idle → s.loop.port = .idle)
    (h5 : (f s.loop).congested = true → s.loop.congested = true) : Capacity (withLoop f s) :=
  ⟨fun b hb => h.1 b (h0 ▸ hb), le_trans h1 h.2, le_trans h2 h.3, h3.symm ▸ h.4, h.5, h.6, h.7, h.8, h.9, h.10, h.11,
    fun e => by
      obtain ⟨a, b⟩ := h.12 (h4 e)
      rw [a] at h2
      exact ⟨List.eq_nil_of_length_eq_zero (Nat.le_zero.mp h2), h3.trans b⟩,
    fun e => h3.symm ▸ h.13 (h5 e)⟩

theorem foldl_cap {α : Type} (f : State → α → State) (hf : ∀ s a, Capacity s → Capacity (f s a)) (l : List α)
    (h : Capacity s) : Capacity (l.foldl f s) := by
  induction l generalizing s with
  | nil => exact h
  | cons a l ih => exact ih (hf _ _ h)

/-! ### Events and frames -/

@[simp] theorem latch_cap (c : Cond) (h : Capacity s) : Capacity (latch c s) := by
  obtain ⟨l, e⟩ := latch_eq c s
  rw [e]
  exact ⟨h.1, h.2, h.3, h.4, h.5, h.6, h.7, h.8, h.9, h.10, h.11, h.12, h.13⟩

@[simp] theorem raise_cap (k : EventKind) (u : Subject) (b : Option Nat) (a : EventArg) (h : Capacity s) :
    Capacity (raise k u b a s) := by
  unfold raise
  simp only
  split
  · repeat' split
    all_goals simp (maxDischargeDepth := 40) [h]
  · rename_i hc
    refine ⟨h.1, h.2, h.3, h.4, h.5, h.6, h.7, h.8, h.9, h.10, ?_, h.12, h.13⟩
    simp at hc
    simp
    omega

@[simp] theorem raiseVessel_cap (k : EventKind) (v : Vessel) (a : EventArg) (h : Capacity s) :
    Capacity (raiseVessel k v a s) := raise_cap _ _ _ _ h
@[simp] theorem raiseBoil_cap (k : EventKind) (n : Nat) (a : EventArg) (h : Capacity s) :
    Capacity (raiseBoil k n a s) := raise_cap _ _ _ _ h
@[simp] theorem raiseCast_cap (k : EventKind) (a : EventArg) (h : Capacity s) : Capacity (raiseCast k a s) := by
  unfold raiseCast; split <;> exact raise_cap _ _ _ _ h

@[simp] theorem tellLeft_cap (o : Owner) (h : Capacity s) : Capacity (tellLeft o s) := by
  cases o <;> simp (maxDischargeDepth := 40) [tellLeft, h]

theorem beginInsertion_cap (q : Insertion) (r : List Insertion) (h : Capacity s) (hr : r.length ≤ 32) :
    Capacity (beginInsertion q r s) :=
  ⟨h.1, h.2, h.3, hr, h.5, h.6, h.7, h.8, h.9, h.10, h.11, nofun, fun e => by
      simp only [beginInsertion, withLoop_loop, Bool.and_eq_true, decide_eq_true_eq] at e ⊢
      exact e.2⟩

/-- The state with its downstream port held busy: what a frame that begins leaves. -/
def heldPort (s : State) : State := withLoop (fun l => { l with port := .sendingTransit }) s

theorem heldPort_cap (h : Capacity s) : Capacity (heldPort s) :=
  ⟨h.1, h.2, h.3, h.4, h.5, h.6, h.7, h.8, h.9, h.10, h.11, nofun, h.13⟩

/-- The arbiter's choice needs no busy port before it (R17). -/
theorem startNext_held (h : Capacity (heldPort s)) : Capacity (startNext s) := by
  have hq : s.loop.queue.length ≤ 32 := h.insertions
  unfold startNext
  split
  · rename_i e
    exact ⟨h.1, h.2, h.3, h.4, h.5, h.6, h.7, h.8, h.9, h.10, h.11, fun x => (by rw [e] at x; cases x), h.13⟩
  · rename_i e
    exact ⟨h.1, h.2, h.3, h.4, h.5, h.6, h.7, h.8, h.9, h.10, h.11, fun x => (by rw [e] at x; cases x), h.13⟩
  · have begun : ∀ (q : Insertion) (r : List Insertion), s.loop.queue = q :: r →
        Capacity (tellLeft q.owner (beginInsertion q r s)) := by
      intro q r e
      refine tellLeft_cap _ ⟨h.1, h.2, h.3, ?_, h.5, h.6, h.7, h.8, h.9, h.10, h.11, nofun,
        fun e => by
          simp only [beginInsertion, withLoop_loop, Bool.and_eq_true, decide_eq_true_eq] at e ⊢
          exact e.2⟩
      rw [e] at hq
      exact le_trans (Nat.le_succ _) hq
    split
    · rename_i e1 e2
      exact ⟨h.1, h.2, h.3, h.4, h.5, h.6, h.7, h.8, h.9, h.10, h.11, fun _ => ⟨e1, e2⟩, h.13⟩
    · exact h
    · rename_i e; exact begun _ _ e
    · rename_i e
      split
      · exact begun _ _ e
      · exact h
    · exact h

@[simp] theorem startNext_cap (h : Capacity s) : Capacity (startNext s) := startNext_held (heldPort_cap h)

@[simp] theorem enterQueue_cap (f : Frame) (o : Owner) (h : Capacity s) (hq : s.loop.queue.length < 32) :
    Capacity (enterQueue f o s).2 := by
  unfold enterQueue
  simp only
  split
  · exact beginInsertion_cap _ _ h (by simp)
  · refine startNext_held ⟨h.1, h.2, h.3, ?_, h.5, h.6, h.7, h.8, h.9, h.10, h.11, nofun, fun e => ?_⟩
    · simp [heldPort]; omega
    · have := h.13 e
      simp [heldPort]; omega

theorem replaceDrive_length (f : Frame) (o : Owner) (l : List Insertion) (x : List Insertion × Owner)
    (h : replaceDrive f o l = some x) : x.1.length = l.length := by
  induction l generalizing x with
  | nil => cases h
  | cons a l ih =>
    unfold replaceDrive at h
    split at h
    · cases h; rfl
    · rw [Option.map_eq_some_iff] at h
      obtain ⟨y, hy, rfl⟩ := h
      simp (maxDischargeDepth := 40) [ih y hy]

theorem displaceEvents_length (l x : List Insertion) (h : displaceEvents l = some x) : x.length + 1 = l.length := by
  induction l generalizing x with
  | nil => cases h
  | cons a l ih =>
    unfold displaceEvents at h
    split at h
    · cases h; rfl
    · rw [Option.map_eq_some_iff] at h
      obtain ⟨y, hy, rfl⟩ := h
      simp (maxDischargeDepth := 40) [ih y hy]

@[simp] theorem offer_cap (f : Frame) (o : Owner) (h : Capacity s) : Capacity (offer f o s).2 := by
  have hq := h.insertions
  unfold offer
  simp only
  split
  · rename_i q old he
    have hl := replaceDrive_length _ _ _ _ he
    refine tellLeft_cap _ ⟨h.1, h.2, h.3, ?_, h.5, h.6, h.7, h.8, h.9, h.10, h.11, fun x => ?_, fun e => ?_⟩
    · simp_all
    · obtain ⟨a, b⟩ := h.12 x
      rw [b] at hl
      exact ⟨a, List.eq_nil_of_length_eq_zero hl⟩
    · exact lt_of_lt_of_eq (h.13 e) hl.symm
  · split
    · simp (maxDischargeDepth := 40) [*]
    · split
      · split
        · rename_i q he
          have := displaceEvents_length _ _ he
          refine enterQueue_cap _ _
            (latch_cap _ ⟨h.1, h.2, h.3, ?_, h.5, h.6, h.7, h.8, h.9, h.10, h.11, fun x => ?_, fun e => ?_⟩) ?_
          · simp; omega
          · obtain ⟨a, b⟩ := h.12 x
            rw [b] at this
            simp at this
          · have := h.13 e
            simp; omega
          · obtain ⟨l, e⟩ := latch_eq .eventOverflow (withLoop (fun l => { l with queue := q }) s)
            rw [e]; simp; omega
        · exact h
      · refine ⟨h.1, h.2, h.3, h.4, h.5, h.6, h.7, h.8, h.9, h.10, h.11, h.12, fun _ => ?_⟩
        simp; omega

@[simp] theorem offerDrive_cap (r d : Nat) (o : Owner) (h : Capacity s) : Capacity (offerDrive r d o s).2 := by
  unfold offerDrive; split <;> simp (maxDischargeDepth := 40) [h]
@[simp] theorem reply_cap (d g c : Byte) (r : Result) (x : List Byte) (h : Capacity s) :
    Capacity (reply d g c r x s).2 := offer_cap _ _ h
@[simp] theorem answer_cap (c : Nat) (rq : Request) (r : Result) (x : List Byte) (h : Capacity s) :
    Capacity (answer c rq r x s) := offer_cap _ _ h
@[simp] theorem answerPage_cap (c : Nat) (rq : Request) (r : Result) (p : Nat) (x : List Byte) (h : Capacity s) :
    Capacity (answerPage c rq r p x s) := offer_cap _ _ h

@[simp] theorem attention_cap (h : Capacity s) : Capacity (attention s) := by
  unfold attention
  split
  · exact h
  · have e := offer_cap (reportFrame s 1 (condMask s.agent.conditions)) .agent h
    simp only
    split
    · exact withAgent_cap _ e le_rfl le_rfl
    · exact e

@[simp] theorem joinIfCaused_cap (c : Cond) (h : Capacity s) : Capacity (joinIfCaused s c) := by
  unfold joinIfCaused joinCond
  simp only
  repeat' split
  all_goals simp (maxDischargeDepth := 40) [h]

@[simp] theorem leaveConds_cap (h : Capacity s) : Capacity (leaveConds s) := by simp (maxDischargeDepth := 40) [leaveConds, h]

@[simp] theorem syncConditions_cap (h : Capacity s) : Capacity (syncConditions s) := by
  unfold syncConditions
  split
  · exact joinIfCaused_cap _ (foldl_cap _ (fun _ c => joinIfCaused_cap c) _ (leaveConds_cap h))
  · exact h

/-! ### Hold slots, the pump and the Pitch Unit -/

@[simp] theorem freeSlot_cap (i : Nat) (h : Capacity s) : Capacity (freeSlot i s) := setSlot_cap _ _ h

@[simp] theorem emptySlots_cap (p : Hold → Bool) (h : Capacity s) : Capacity (emptySlots p s) :=
  foldl_cap _ (fun s i h => by
    unfold emptySlot
    repeat' split
    all_goals simp (maxDischargeDepth := 40) [h]) _ h

@[simp] theorem slotsAtStepEnd_cap (v : Vessel) (n : Nat) (h : Capacity s) : Capacity (slotsAtStepEnd v n s) :=
  emptySlots_cap _ h
@[simp] theorem slotsAtStepBegin_cap (v : Vessel) (h : Capacity s) : Capacity (slotsAtStepBegin v s) :=
  emptySlots_cap _ h
@[simp] theorem slotsOfVessel_cap (v : Vessel) (h : Capacity s) : Capacity (slotsOfVessel v s) := emptySlots_cap _ h

@[simp] theorem holdFrame_cap (f : Frame) (v : Vessel) (r : Nat) (h : Capacity s) : Capacity (holdFrame f v r s) := by
  unfold holdFrame; split <;> simp (maxDischargeDepth := 40) [h]
@[simp] theorem expireSlot_cap (i : Nat) (h : Capacity s) : Capacity (expireSlot i s) := by
  unfold expireSlot; split <;> simp (maxDischargeDepth := 40) [h]

@[simp] theorem drivePump_cap (d : Nat) (h : Capacity s) : Capacity (drivePump d s) := by simp (maxDischargeDepth := 40) [drivePump_eq, h]
@[simp] theorem reofferPump_cap (h : Capacity s) : Capacity (reofferPump s) := by
  unfold reofferPump; split <;> simp (maxDischargeDepth := 40) [h]
@[simp] theorem pausedEntry_cap (h : Capacity s) : Capacity (pausedEntry s) := by
  unfold pausedEntry; split <;> simp (maxDischargeDepth := 40) [h]
@[simp] theorem reviewPauses_cap (h : Capacity s) : Capacity (reviewPauses s) := by
  unfold reviewPauses; simp only; repeat' split
  all_goals simp (maxDischargeDepth := 40) [h]

@[simp] theorem testLag_cap (h : Capacity s) : Capacity (testLag s) := by simp (maxDischargeDepth := 40) [testLag, h]

@[simp] theorem tryIssue_cap (h : Capacity s) : Capacity (tryIssue s) := by
  unfold tryIssue
  split
  · exact h
  · rename_i c _
    split
    · exact h
    · split
      · have e := offerDrive_cap (lineRow s.tables).dose 1000 (.pitchUnit c.number) h
        split <;> (rename_i hh; rw [hh] at e; simp [e])
      · exact h

@[simp] theorem newGv_cap (h : Capacity s) : Capacity (newGv s) := by unfold newGv; split <;> simp (maxDischargeDepth := 40) [h]
@[simp] theorem doseFrameLeft_cap (n : Nat) (h : Capacity s) : Capacity (doseFrameLeft n s) := by
  unfold doseFrameLeft; simp only; split <;> simp (maxDischargeDepth := 40) [h]
@[simp] theorem strokeDonePart_cap (h : Capacity s) : Capacity (strokeDonePart s) := by
  unfold strokeDonePart; repeat' split
  all_goals simp (maxDischargeDepth := 40) [h]
@[simp] theorem strokeTimeoutPart_cap (h : Capacity s) : Capacity (strokeTimeoutPart s) := by
  unfold strokeTimeoutPart; split
  · exact h
  · simp only; split <;> simp (maxDischargeDepth := 40) [h]

/-! ### The Cast Meter -/

@[simp] theorem changeBrewState_cap (n : Nat) (st : BrewState) (u : Subject) (h : Capacity s) :
    Capacity (changeBrewState n st u s) := by simp (maxDischargeDepth := 40) [changeBrewState, h]

theorem offerRecord_cap {d : Draft} (e : offerRecord d s = some t) (h : Capacity s) : Capacity t := by
  unfold offerRecord at e
  split at e
  · rename_i hp
    cases e
    refine ⟨h.1, h.2, h.3, h.4, h.5, h.6, h.7, h.8, ?_, h.10, h.11, h.12, h.13⟩
    simp (maxDischargeDepth := 40) [queueHasPlace] at hp
    simp
    omega
  · cases e

@[simp] theorem castAttempt_cap (h : Capacity s) : Capacity (castAttempt s).2 := by
  have e : ∀ b, Capacity (openCast b s) := by
    intro b
    unfold openCast; simp only
    split
    · exact h
    · rename_i hh
      exact changeBrewState_cap _ _ _ (withBrew_cap _ _
        (castMeter_cap _ (withJournal_cap _ (offerRecord_cap hh h) le_rfl)))
  unfold castAttempt; repeat' split
  all_goals first | exact h | exact e _

@[simp] theorem flowSample_cap (c : BitVec 32) (h : Capacity s) : Capacity (flowSample c s) := by
  unfold flowSample; simp only; repeat' split
  all_goals simp (maxDischargeDepth := 40) [h]
@[simp] theorem enterSettling_cap (h : Capacity s) : Capacity (enterSettling s) := by simp (maxDischargeDepth := 40) [enterSettling, h]
@[simp] theorem addCharge_cap (n : Nat) (d : DutyPart) (h : Capacity s) : Capacity (addCharge n d s) :=
  withDuty_cap _ h

@[simp] theorem offerClose_cap (d : Draft) (h : Capacity s) : Capacity (offerClose d s) := by
  unfold offerClose; simp only
  split
  · rename_i t e
    have := offerRecord_cap e h
    repeat' split
    all_goals simp (maxDischargeDepth := 40) [this]
  · simp (maxDischargeDepth := 40) [h]

@[simp] theorem enterCharging_cap (h : Capacity s) : Capacity (enterCharging s) := by
  unfold enterCharging; split <;> simp (maxDischargeDepth := 40) [h]
@[simp] theorem maybeCharge_cap (h : Capacity s) : Capacity (maybeCharge s) := by
  unfold maybeCharge; repeat' split
  all_goals simp (maxDischargeDepth := 40) [h]
@[simp] theorem settleExpiry_cap (h : Capacity s) : Capacity (settleExpiry s) := by simp (maxDischargeDepth := 40) [settleExpiry, h]
@[simp] theorem strokeDone_cap (h : Capacity s) : Capacity (strokeDone s) := by simp (maxDischargeDepth := 40) [strokeDone, h]
@[simp] theorem strokeTimeout_cap (h : Capacity s) : Capacity (strokeTimeout s) := by simp (maxDischargeDepth := 40) [strokeTimeout, h]
@[simp] theorem endTrigger_cap (c : EndCause) (h : Capacity s) : Capacity (endTrigger c s) := by
  unfold endTrigger; repeat' split
  all_goals simp (maxDischargeDepth := 40) [h]
@[simp] theorem castPowerFail_cap (h : Capacity s) : Capacity (castPowerFail s) := by
  unfold castPowerFail; repeat' split
  all_goals simp (maxDischargeDepth := 40) [h]
@[simp] theorem castOpened_cap (h : Capacity s) : Capacity (castOpened s) := by
  have e : ∀ u, Capacity u → Capacity (castStepInEffect u) := by
    intro u h; unfold castStepInEffect; split <;> simp (maxDischargeDepth := 40) [h]
  unfold castOpened; simp only; repeat' split
  all_goals simp (maxDischargeDepth := 40) [h, e]
@[simp] theorem castSample_cap (r : Nat) (h : Capacity s) : Capacity (castSample r s) := by
  unfold castSample; simp only; repeat' split
  all_goals simp (maxDischargeDepth := 40) [h]
@[simp] theorem castExpiry_cap (r : Nat) (h : Capacity s) : Capacity (castExpiry r s) := by
  unfold castExpiry; simp only; split <;> simp (maxDischargeDepth := 40) [h]
@[simp] theorem castLevel_cap (x : Int) (h : Capacity s) : Capacity (castLevel x s) := by
  unfold castLevel; simp only; split <;> simp (maxDischargeDepth := 40) [h]

/-! ### The Boil Unit -/

@[simp] theorem recordMissed_cap (n i : Nat) (c : MissCause) (h : Capacity s) : Capacity (recordMissed n i c s) := by
  simp (maxDischargeDepth := 40) [recordMissed, h]
@[simp] theorem recordFired_cap (n i : Nat) (h : Capacity s) : Capacity (recordFired n i s) := by
  simp (maxDischargeDepth := 40) [recordFired, h]
@[simp] theorem offerAddition_cap (e : SendEntry) (h : Capacity s) : Capacity (offerAddition e s).2 := by
  unfold offerAddition; repeat' split
  all_goals simp (maxDischargeDepth := 40) [h]
@[simp] theorem popSend_cap (h : Capacity s) : Capacity (popSend s) := by simp (maxDischargeDepth := 40) [popSend, h]

@[simp] theorem pumpSend_cap (n : Nat) (h : Capacity s) : Capacity (pumpSend n s) := by
  induction n generalizing s with
  | zero => exact h
  | succ n ih =>
    unfold pumpSend
    split
    · exact h
    · split
      · simp (maxDischargeDepth := 40) [h]
      · rename_i e _ _
        split
        · exact ih (popSend_cap h)
        · have hh := offerAddition_cap e h
          split <;> (rename_i he; rw [he] at hh; simp (maxDischargeDepth := 40) [hh, ih])

@[simp] theorem boilPump_cap (h : Capacity s) : Capacity (boilPump s) := pumpSend_cap _ h
@[simp] theorem boilFrameLeft_cap (h : Capacity s) : Capacity (boilFrameLeft s) := by simp (maxDischargeDepth := 40) [boilFrameLeft, h]

@[simp] theorem joinSend_cap (n i : Nat) (a : AdditionRow) (h : Capacity s) : Capacity (joinSend n i a s) := by
  unfold joinSend; simp only
  split
  · refine boilPump_cap ⟨h.1, h.2, h.3, h.4, h.5, h.6, h.7, ?_, h.9, h.10, h.11, h.12, h.13⟩
    simp; omega
  · simp (maxDischargeDepth := 40) [h]

@[simp] theorem walkAdditions_cap (b : Brew) (n : Nat) (h : Capacity s) : Capacity (walkAdditions b n s) := by
  induction n generalizing s with
  | zero => exact h
  | succ n ih =>
    unfold walkAdditions
    simp only
    repeat' split
    all_goals simp (maxDischargeDepth := 40) [h, ih]

@[simp] theorem resolvePending_cap (i : Nat) (h : Capacity s) : Capacity (resolvePending i s) := by
  simp (maxDischargeDepth := 40) [resolvePending, h]
@[simp] theorem boilContinue_cap (h : Capacity s) : Capacity (boilContinue s) := by
  unfold boilContinue; split <;> simp (maxDischargeDepth := 40) [h]
@[simp] theorem confirmExpiry_cap (h : Capacity s) : Capacity (confirmExpiry s) := by
  unfold confirmExpiry; split <;> simp (maxDischargeDepth := 40) [h]
@[simp] theorem boilAfresh_cap (h : Capacity s) : Capacity (boilAfresh s) := by simp (maxDischargeDepth := 40) [boilAfresh, h]
@[simp] theorem beginBoil_cap (b : Brew) (h : Capacity s) : Capacity (beginBoil b s) := by simp (maxDischargeDepth := 40) [beginBoil, h]
@[simp] theorem accrueBoil_cap (n d : Nat) (h : Capacity s) : Capacity (accrueBoil n d s) := by simp (maxDischargeDepth := 40) [accrueBoil, h]

theorem recordAll_cap {α : Type} (g : α → Nat) (n : Nat) (c : MissCause) (l : List α) (h : Capacity s) :
    Capacity (l.foldl (fun s i => recordMissed n (g i) c s) s) :=
  foldl_cap _ (fun _ _ h => recordMissed_cap _ _ _ h) l h

@[simp] theorem missRest_cap (b : Brew) (h : Capacity s) : Capacity (missRest b s) := by
  unfold missRest; simp only
  exact recordAll_cap (fun i => i) _ _ _ (by simp (maxDischargeDepth := 40) [h])

@[simp] theorem completeBoil_cap (b : Brew) (h : Capacity s) : Capacity (completeBoil b s) := by
  have e := missRest_cap b h
  unfold completeBoil; simp only
  repeat' split
  all_goals simp (maxDischargeDepth := 40) [e]

@[simp] theorem boilStages_cap (b : Brew) (x : Int) (p : Option Int) (d : Nat) (h : Capacity s) :
    Capacity (boilStages b x p d s) := by
  unfold boilStages; simp only
  repeat' split
  all_goals simp (maxDischargeDepth := 40) [h]

@[simp] theorem haltBoilStep_cap (n : Nat) (h : Capacity s) : Capacity (haltBoilStep n s) := by
  unfold haltBoilStep; simp only; repeat' split
  all_goals simp (maxDischargeDepth := 40) [h]

@[simp] theorem dropSends_cap (n : Nat) (h : Capacity s) : Capacity (dropSends n s) := by
  unfold dropSends; simp only
  exact withBoil_cap _ h (by simpa using List.length_filter_le _ _)
@[simp] theorem haltSends_cap (n : Nat) (h : Capacity s) : Capacity (haltSends n s) :=
  recordAll_cap (fun e : SendEntry => e.index) _ _ _ (dropSends_cap n h)

/-! ### Drives and sequencers -/

@[simp] theorem seqOffer_cap (v : Vessel) (u : UnsentOffer) (h : Capacity s) : Capacity (seqOffer v u s).2 := by
  simp (maxDischargeDepth := 40) [seqOffer_eq, h]
@[simp] theorem stepDrive_cap (v : Vessel) (u : UnsentOffer) (h : Capacity s) : Capacity (stepDrive v u s).2 := by
  rw [stepDrive_eq]; simp only; split <;> simp (maxDischargeDepth := 40) [h]
@[simp] theorem transferDrive_cap (v : Vessel) (r : Option Nat) (d : Nat) (h : Capacity s) :
    Capacity (transferDrive v r d s) := by unfold transferDrive; split <;> simp (maxDischargeDepth := 40) [h]
@[simp] theorem transferOn_cap (v : Vessel) (st : StepRow) (h : Capacity s) : Capacity (transferOn v st s) := by
  simp (maxDischargeDepth := 40) [transferOn, h]
@[simp] theorem transferOff_cap (v : Vessel) (st : StepRow) (h : Capacity s) : Capacity (transferOff v st s) := by
  simp (maxDischargeDepth := 40) [transferOff, h]
@[simp] theorem offerHeat_cap (v : Vessel) (d : Nat) (h : Capacity s) : Capacity (offerHeat v d s) := by
  unfold offerHeat; simp only
  repeat' split
  all_goals simp (maxDischargeDepth := 40) [h]
@[simp] theorem forceZero_cap (v : Vessel) (h : Capacity s) : Capacity (forceZero v s) := by
  unfold forceZero; split <;> simp (maxDischargeDepth := 40) [h]
@[simp] theorem heatDemand_cap (v : Vessel) (d : Nat) (h : Capacity s) : Capacity (heatDemand v d s) := by
  unfold heatDemand; simp only; split <;> simp (maxDischargeDepth := 40) [h]
@[simp] theorem refreshSync_cap (v : Vessel) (h : Capacity s) : Capacity (refreshSync s v) := by
  unfold refreshSync; simp (maxDischargeDepth := 40) [h]

@[simp] theorem beginStep_cap (v : Vessel) (n : Nat) (h : Capacity s) : Capacity (beginStep v n s) := by
  unfold beginStep; simp only; repeat' split
  all_goals simp (maxDischargeDepth := 40) [h]
@[simp] theorem endStep_cap (v : Vessel) (h : Capacity s) : Capacity (endStep v s) := by
  unfold endStep; simp only; split <;> simp (maxDischargeDepth := 40) [h]
@[simp] theorem finishStep_cap (v : Vessel) (h : Capacity s) : Capacity (finishStep v s) := by
  unfold finishStep; simp only; split <;> simp (maxDischargeDepth := 40) [h]
@[simp] theorem transferInEffect_cap (v : Vessel) (st : StepRow) (h : Capacity s) :
    Capacity (transferInEffect v st s) := by simp (maxDischargeDepth := 40) [transferInEffect, h]
@[simp] theorem openTransfer_cap (v w : Vessel) (st : StepRow) (h : Capacity s) :
    Capacity (openTransfer v w st s) := by unfold openTransfer; simp only; split <;> simp (maxDischargeDepth := 40) [h]
@[simp] theorem blockStep_cap (v : Vessel) (r : BlockReason) (h : Capacity s) : Capacity (blockStep v r s) :=
  withSeq_cap _ _ h
@[simp] theorem inEffect_cap (v : Vessel) (st : StepRow) (f : Sequencer → Sequencer) (h : Capacity s) :
    Capacity (inEffect v st f s) := by unfold inEffect; simp only; split <;> simp (maxDischargeDepth := 40) [h]
@[simp] theorem offerStepFrame_cap (v : Vessel) (st : StepRow) (h : Capacity s) :
    Capacity (offerStepFrame v st s).2 := by
  unfold offerStepFrame
  split
  · rename_i row _
    exact stepDrive_cap v { row := row, demand := st.value, ofStep := true } h
  · simp (maxDischargeDepth := 40) [h]

@[simp] theorem takeEffect_cap (v : Vessel) (h : Capacity s) : Capacity (takeEffect v s).2 := by
  unfold takeEffect
  split
  · exact h
  · split
    · split <;> simp (maxDischargeDepth := 40) [h]
    all_goals try simp (maxDischargeDepth := 40) [h]
    · split
      · exact h
      · repeat' split
        all_goals simp (maxDischargeDepth := 40) [h]
    · have e := castAttempt_cap h
      split <;> (rename_i hh; rw [hh] at e; simp (maxDischargeDepth := 40) [e])

@[simp] theorem advance_cap (n : Nat) (v : Vessel) (h : Capacity s) : Capacity (advance n v s) := by
  induction n generalizing s with
  | zero => exact h
  | succ n ih =>
    have e := takeEffect_cap v h
    unfold advance
    split
    · rename_i hh; rw [hh] at e; exact e
    · rename_i hh; rw [hh] at e
      simp only
      split
      · split
        · split
          · exact ih (beginStep_cap _ _ (finishStep_cap _ e))
          · exact beginStep_cap _ _ (finishStep_cap _ e)
        · exact finishStep_cap _ e
      · exact finishStep_cap _ e

@[simp] theorem startAt_cap (v : Vessel) (n : Nat) (h : Capacity s) : Capacity (startAt v n s) := by
  unfold startAt; simp only; split <;> simp (maxDischargeDepth := 40) [h]
@[simp] theorem completeStep_cap (v : Vessel) (h : Capacity s) : Capacity (completeStep v s) := by
  unfold completeStep; simp only; repeat' split
  all_goals simp (maxDischargeDepth := 40) [h]
@[simp] theorem becomeIdle_cap (v : Vessel) (h : Capacity s) : Capacity (becomeIdle v s) := by simp (maxDischargeDepth := 40) [becomeIdle, h]
@[simp] theorem emptyVessel_cap (v : Vessel) (h : Capacity s) : Capacity (emptyVessel v s) := withVessel_cap _ _ h
@[simp] theorem advanceBrew_cap (n : Nat) (w : Vessel) (h : Capacity s) : Capacity (advanceBrew n w s) := by
  unfold advanceBrew; split <;> simp (maxDischargeDepth := 40) [h]
@[simp] theorem settleIn_cap (n : Nat) (w : Vessel) (h : Capacity s) : Capacity (settleIn n w s) := by
  simp (maxDischargeDepth := 40) [settleIn, h]
@[simp] theorem completeTransfer_cap (v : Vessel) (st : StepRow) (h : Capacity s) :
    Capacity (completeTransfer v st s) := by
  unfold completeTransfer; simp only; repeat' split
  all_goals simp (maxDischargeDepth := 40) [h]
@[simp] theorem suspend_cap (v : Vessel) (h : Capacity s) : Capacity (suspend v s) := by
  unfold suspend; simp only; split <;> simp (maxDischargeDepth := 40) [h]
@[simp] theorem leftSuspended_cap (v : Vessel) (h : Capacity s) : Capacity (leftSuspended v s) := by
  unfold leftSuspended; split <;> simp (maxDischargeDepth := 40) [h]
@[simp] theorem retryStep_cap (v : Vessel) (h : Capacity s) : Capacity (retryStep v s) := by
  unfold retryStep; simp only; split <;> simp (maxDischargeDepth := 40) [h]
@[simp] theorem resumeStep_cap (v : Vessel) (st : StepRow) (h : Capacity s) : Capacity (resumeStep v st s) := by
  unfold resumeStep; simp only
  split
  all_goals try simp (maxDischargeDepth := 40) [h]
  · split <;> simp (maxDischargeDepth := 40) [h]
  · have e := offerStepFrame_cap v st (withSeq_cap v (fun q => { q with state := .running }) h)
    split <;> (rename_i hh; rw [hh] at e; simp (maxDischargeDepth := 40) [e])
@[simp] theorem resume_cap (v : Vessel) (h : Capacity s) : Capacity (resume v s) := by
  unfold resume
  split
  · exact h
  · split <;> simp (maxDischargeDepth := 40) [h]
@[simp] theorem syncCauses_cap (v : Vessel) (h : Capacity s) : Capacity (syncCauses v s) := by
  unfold syncCauses; simp only; repeat' split
  all_goals simp (maxDischargeDepth := 40) [h]
@[simp] theorem syncAllCauses_cap (h : Capacity s) : Capacity (syncAllCauses s) :=
  foldl_cap _ (fun _ v h => syncCauses_cap v h) _ h
@[simp] theorem haltStep_cap (v : Vessel) (h : Capacity s) : Capacity (haltStep v s) := by
  unfold haltStep; simp only; repeat' split
  all_goals simp (maxDischargeDepth := 40) [h]
@[simp] theorem becomeHalted_cap (v : Vessel) (h : Capacity s) : Capacity (becomeHalted v s) := by
  simp (maxDischargeDepth := 40) [becomeHalted, h]
@[simp] theorem halt_cap (v : Vessel) (r : Bool) (h : Capacity s) : Capacity (halt v r s) := by
  unfold halt; repeat' split
  all_goals simp (maxDischargeDepth := 40) [h]
@[simp] theorem startList_cap (v : Vessel) (h : Capacity s) : Capacity (startList v s) := by simp (maxDischargeDepth := 40) [startList, h]
@[simp] theorem continueSeq_cap (v : Vessel) (h : Capacity s) : Capacity (continueSeq v s).2 := by
  unfold continueSeq
  split
  · exact h
  · simp only; repeat' split
    all_goals simp (maxDischargeDepth := 40) [h]

@[simp] theorem offerAndComplete_cap (v : Vessel) (d : Nat) (b : Bool) (h : Capacity s) :
    Capacity (offerAndComplete v d b s) := by
  unfold offerAndComplete; simp only; repeat' split
  all_goals simp (maxDischargeDepth := 40) [h]
@[simp] theorem heatCompute_cap (v : Vessel) (x y : Int) (d : Nat) (h : Capacity s) :
    Capacity (heatCompute v x y d s).2 := by unfold heatCompute; simp (maxDischargeDepth := 40) [h]
@[simp] theorem rampSample_cap (v : Vessel) (st : StepRow) (x : Int) (d : Nat) (h : Capacity s) :
    Capacity (rampSample v st x d s) := by simp (maxDischargeDepth := 40) [rampSample_eq, h]
@[simp] theorem holdSample_cap (v : Vessel) (st : StepRow) (x : Int) (p : Option Int) (d : Nat) (h : Capacity s) :
    Capacity (holdSample v st x p d s) := by
  unfold holdSample; simp only; repeat' split
  all_goals simp (maxDischargeDepth := 40) [h, heatCompute]
@[simp] theorem boilSample_cap (st : StepRow) (x : Int) (p : Option Int) (d : Nat) (h : Capacity s) :
    Capacity (boilSample st x p d s) := by
  unfold boilSample
  split
  · exact h
  · simp only; repeat' split
    all_goals simp (maxDischargeDepth := 40) [h]
@[simp] theorem workSample_cap (v : Vessel) (e : PointEntry) (h : Capacity s) : Capacity (workSample v e s) := by
  unfold workSample
  split
  · simp only; repeat' split
    all_goals simp (maxDischargeDepth := 40) [h]
  · exact h
@[simp] theorem pvSample_cap (v : Vessel) (r : Nat) (h : Capacity s) : Capacity (pvSample v r s) := by
  unfold pvSample; simp only; repeat' split
  all_goals simp (maxDischargeDepth := 40) [h]
@[simp] theorem levelSample_cap (v : Vessel) (r : Nat) (h : Capacity s) : Capacity (levelSample v r s) := by
  unfold levelSample; simp only; repeat' split
  all_goals simp (maxDischargeDepth := 40) [h]
@[simp] theorem pvExpiry_cap (v : Vessel) (h : Capacity s) : Capacity (pvExpiry v s) := by
  unfold pvExpiry; simp only; split <;> simp (maxDischargeDepth := 40) [h]
@[simp] theorem reofferUnsent_cap (v : Vessel) (u : UnsentOffer) (h : Capacity s) :
    Capacity (reofferUnsent v u s).2 := by
  show Capacity (if u.ofStep || transferNames s v u.row then stepDrive v u s else seqOffer v u s).2
  split <;> simp (maxDischargeDepth := 40) [h]
@[simp] theorem reofferAll_cap (v : Vessel) (l : List UnsentOffer) (h : Capacity s) :
    Capacity (reofferAll v l s).2 := by
  unfold reofferAll
  suffices ∀ (b : Bool) (s : State), Capacity s →
      Capacity (l.foldl (fun a u => ((a.1 || (reofferUnsent v u a.2).1, (reofferUnsent v u a.2).2) : Bool × State))
        (b, s)).2 from this false s h
  clear h
  induction l with
  | nil => intro b s h; exact h
  | cons u l ih => intro b s h; exact ih _ _ (reofferUnsent_cap v u h)
@[simp] theorem refreshExpiry_cap (v : Vessel) (h : Capacity s) : Capacity (refreshExpiry v s) := by
  rw [refreshExpiry_eq]; simp only; repeat' split
  all_goals simp (maxDischargeDepth := 40) [h]

@[simp] theorem drainTells_cap (n : Nat) (h : Capacity s) : Capacity (drainTells n s) := by
  induction n generalizing s with
  | zero => exact h
  | succ n ih =>
    unfold drainTells
    split
    · exact h
    · simp only
      apply ih
      split <;> simp (maxDischargeDepth := 40) [h]

/-- The end of a command keeps every room. -/
@[simp] theorem settle_cap (h : Capacity s) : Capacity (settle s) :=
  tells_cap _ (syncConditions_cap (foldl_cap _ (fun _ v h => refreshSync_cap v h) _ (drainTells_cap _ h)))

/-! ### Authority and brews -/

@[simp] theorem putAuthority_cap (v : Vessel) (a : Authority) (c : AuthorityCause) (h : Capacity s) :
    Capacity (putAuthority v a c s) := by simp (maxDischargeDepth := 40) [putAuthority, h]
@[simp] theorem tellCast_cap (v : Vessel) (a : Authority) (h : Capacity s) : Capacity (tellCast v a s) := by
  unfold tellCast; simp only; repeat' split
  all_goals simp (maxDischargeDepth := 40) [h]
@[simp] theorem changeAuthority_cap (v : Vessel) (a : Authority) (c : AuthorityCause) (h : Capacity s) :
    Capacity (changeAuthority v a c s) := by
  unfold changeAuthority; simp only; repeat' split
  all_goals simp (maxDischargeDepth := 40) [h]
@[simp] theorem handRequest_cap (v : Vessel) (r : Nat) (h : Capacity s) : Capacity (handRequest v r s) := by
  unfold handRequest; simp only; repeat' split
  all_goals simp (maxDischargeDepth := 40) [h]
@[simp] theorem autoRequest_cap (v : Vessel) (h : Capacity s) : Capacity (autoRequest v s) :=
  changeAuthority_cap _ _ _ h
@[simp] theorem estop_cap (v : Vessel) (h : Capacity s) : Capacity (estop v s) := by
  unfold estop; simp only; repeat' split
  all_goals simp (maxDischargeDepth := 40) [h]
@[simp] theorem setLocks_cap (m : List Vessel) (b : Bool) (h : Capacity s) : Capacity (setLocks m b s) :=
  foldl_cap (fun s v => withVessel v (fun r => { r with supervisorLock := b }) s) (fun _ _ h => withVessel_cap _ _ h) m h

@[simp] theorem openBrew_cap (f : BrewFields) (h : Capacity s) : Capacity (openBrew f s).2.2 := by
  unfold openBrew; simp only; repeat' split
  all_goals simp (maxDischargeDepth := 40) [h]
@[simp] theorem assignBrew_cap (n : Nat) (h : Capacity s) : Capacity (assignBrew n s).2 := by
  unfold assignBrew; simp only; repeat' split
  all_goals simp (maxDischargeDepth := 40) [h]
@[simp] theorem haltAll_cap (l : List Vessel) (r : Bool) (h : Capacity s) :
    Capacity (l.foldl (fun s v => halt v r s) s) := foldl_cap _ (fun _ v h => halt_cap v r h) l h
@[simp] theorem abandonBrew_cap (n : Nat) (h : Capacity s) : Capacity (abandonBrew n s).2 := by
  unfold abandonBrew; simp only; repeat' split
  all_goals simp (maxDischargeDepth := 40) [h]
@[simp] theorem releaseBrew_cap (n : Nat) (h : Capacity s) : Capacity (releaseBrew n s).2 := by
  unfold releaseBrew; repeat' split
  all_goals simp (maxDischargeDepth := 40) [h]
@[simp] theorem leaveVessel_cap (n : Nat) (v : Vessel) (h : Capacity s) : Capacity (leaveVessel n v s) := by
  unfold leaveVessel; simp only; split <;> simp (maxDischargeDepth := 40) [h]
@[simp] theorem clearVessel_cap (v : Vessel) (h : Capacity s) : Capacity (clearVessel v s).2 := by
  unfold clearVessel; simp only; repeat' split
  all_goals simp (maxDischargeDepth := 40) [h, clearOut, clearSource, clearDestination, armIfIdle]
@[simp] theorem resetVessels_cap (h : Capacity s) : Capacity (resetVessels s) :=
  endTrigger_cap _ (emptySlots_cap _ (haltAll_cap _ _ h))

/-! ### The tables -/

@[simp] theorem putValid_cap (n r : Nat) (c : Cell) (h : Capacity s) : Capacity (putValid n r c s) := tables_cap _ h
@[simp] theorem pointLost_cap (r : Nat) (h : Capacity s) : Capacity (pointLost r s) := by
  have e : ∀ u, Capacity u → Capacity (vessels.foldl (dropVesselRow r) u) :=
    fun u h => foldl_cap _ (fun s v h => by unfold dropVesselRow; split <;> simp (maxDischargeDepth := 40) [h]) _ h
  unfold pointLost; simp only
  split
  · exact putValid_cap _ _ _ (e _ (withEntry_cap _ _ h))
  · exact e _ (withEntry_cap _ _ h)
@[simp] theorem dropRecipes_cap (u : Nat → Bool) (l : List Nat) (h : Capacity s) :
    Capacity (l.foldl (dropRecipe u) s) :=
  foldl_cap _ (fun s r h => by unfold dropRecipe; split <;> simp (maxDischargeDepth := 40) [h]) _ h
@[simp] theorem invalidate_cap (n r : Nat) (h : Capacity s) : Capacity (invalidate n r s) := by
  unfold invalidate; simp only; repeat' split
  all_goals simp (maxDischargeDepth := 40) [h]
@[simp] theorem validate_cap (n r : Nat) (h : Capacity s) : Capacity (validate n r s).2 := by
  unfold validate; simp only; repeat' split
  all_goals simp (maxDischargeDepth := 40) [h]
@[simp] theorem writeBankCell_cap (r f : Nat) (c : Cell) (h : Capacity s) : Capacity (writeBankCell r f c s).2 := by
  unfold writeBankCell; repeat' split
  all_goals simp (maxDischargeDepth := 40) [h, touchBank, putBankValid]
@[simp] theorem writeCell_cap (n r f : Nat) (c : Cell) (h : Capacity s) : Capacity (writeCell n r f c s).2 := by
  have e := validate_cap n r h
  unfold writeCell
  simp only
  repeat' split
  all_goals first
    | exact h
    | exact e
    | exact writeBankCell_cap _ _ _ h
    | exact invalidate_cap _ _ h
    | exact tables_cap _ (invalidate_cap _ _ h)
@[simp] theorem writeCells_cap (w : Window) (l : List Cell) (h : Capacity s) : Capacity (writeCells w l s).2 := by
  have e : ∀ (l : List Cell) (a : WriteTally × State), Capacity a.2 → Capacity (l.foldl (takeCell w) a).2 := by
    intro l
    induction l with
    | nil => intro a h; exact h
    | cons c l ih =>
      intro a h
      refine ih _ (syncConditions_cap ?_)
      rw [writeAtPointer_eq]
      simp only
      split <;> simp (maxDischargeDepth := 40) [h]
  exact syncAllCauses_cap (e l ({ met := 0, written := 0, first := none }, s) h)
@[simp] theorem readCells_cap (w : Window) (n : Nat) (h : Capacity s) : Capacity (readCells w n s).2 := by
  induction n generalizing s with
  | zero => exact h
  | succ n ih => exact ih (withAgent_cap (fun g => { g with readPtr := w.next s.agent.readPtr }) h le_rfl le_rfl)

/-! ### The Journal Port and the Duty Accountant -/

theorem offerTariff_cap (e : offerTariff s = some t) (h : Capacity s) : Capacity t := by
  unfold offerTariff at e
  rw [Option.map_eq_some_iff] at e
  obtain ⟨u, hu, rfl⟩ := e
  exact withDuty_cap _ (offerRecord_cap hu h)
@[simp] theorem startRead_cap (h : Capacity s) : Capacity (startRead s) := by unfold startRead; split <;> simp (maxDischargeDepth := 40) [h]
@[simp] theorem failQueue_cap (h : Capacity s) : Capacity (failQueue s) := by
  unfold failQueue freeAfterWrite
  exact startRead_cap (withJournal_cap _ (withJournal_cap _ h le_rfl) le_rfl)

theorem eraseP_length_of_find {α : Type} (p : α → Bool) (l : List α) (a : α) (h : l.find? p = some a) :
    (l.eraseP p).length + 1 = l.length := by
  have hm := List.mem_of_find?_eq_some h
  have hp := List.find?_some h
  have := List.length_eraseP_of_mem hm hp
  have : 0 < l.length := List.length_pos_of_mem hm
  omega

theorem writeOrder_length {q : List Draft} (h : writeOrder s = some q) : q.length = s.journal.queue.length := by
  unfold writeOrder at h
  split at h
  · unfold castCloseFirst at h
    split at h
    · rename_i d hd
      cases h
      have := eraseP_length_of_find _ _ _ hd
      simp; omega
    · cases h
  · split at h
    · cases h
    · cases h; rfl

@[simp] theorem beginWrite_cap (h : Capacity s) : Capacity (beginWrite s) := by
  unfold beginWrite
  split
  · rename_i d rest e
    have := writeOrder_length e
    split
    · simp (maxDischargeDepth := 40) [h]
    · refine withJournal_cap _ h ?_
      simp at this
      simp
      omega
  · exact h
  · exact h
@[simp] theorem writeIfPossible_cap (h : Capacity s) : Capacity (writeIfPossible s) := by
  unfold writeIfPossible; split <;> simp (maxDischargeDepth := 40) [h]
@[simp] theorem eraseDone_cap (h : Capacity s) : Capacity (eraseDone s) := by
  unfold eraseDone
  split
  · exact store_cap _ (withJournal_cap _ h le_rfl)
  · exact h
@[simp] theorem programDone_cap (h : Capacity s) : Capacity (programDone s) := by
  unfold programDone
  split
  · exact store_cap _ (withJournal_cap _ h le_rfl)
  · exact h

@[simp] theorem badPosition_cap (h : Capacity s) : Capacity (badPosition s) := by
  unfold badPosition; simp only
  split
  · simp (maxDischargeDepth := 40) [h]
  · refine withJournal_cap _ (by simp (maxDischargeDepth := 40) [h]) ?_
    simp only [withJournal_journal]
    cases (raise EventKind.journalBlockBad Subject.none none
      (EventArg.num (blockOf (writePosition s.journal))) s).journal.queue <;> simp
@[simp] theorem popRecord_cap (h : Capacity s) : Capacity (popRecord s) := by simp (maxDischargeDepth := 40) [popRecord, h]

theorem length_eraseP_le {α : Type} (p : α → Bool) (l : List α) : (l.eraseP p).length ≤ l.length :=
  List.length_eraseP_le

@[simp] theorem sendDeferred_cap (c : Nat) (r : Result) (d : List Byte) (h : Capacity s) :
    Capacity (sendDeferred c r d s) := by
  unfold sendDeferred; split <;> simp (maxDischargeDepth := 40) [h]
@[simp] theorem deferReply_cap (rq : Request) (c : Nat) (h : Capacity s) : Capacity (deferReply rq c s) := by
  simp (maxDischargeDepth := 40) [deferReply, h]
@[simp] theorem takeCharge_cap (n : Nat) (h : Capacity s) : Capacity (takeCharge n s) := by
  unfold takeCharge; split <;> simp (maxDischargeDepth := 40) [h]
@[simp] theorem activateTariff_cap (i : TariffImage) (q : Seq) (h : Capacity s) : Capacity (activateTariff i q s) := by
  unfold activateTariff; simp only; split
  · exact withDuty_cap _ h
  · exact tables_cap _ (withDuty_cap _ h)
@[simp] theorem endClosing_cap (q : Option Seq) (h : Capacity s) : Capacity (endClosing q s) := by
  unfold endClosing; split <;> simp (maxDischargeDepth := 40) [h]
@[simp] theorem castClosed_cap (h : Capacity s) : Capacity (castClosed s) := by
  have e1 : ∀ n u, Capacity u → Capacity (closeOccupancy n u) := by
    intro n u h
    unfold closeOccupancy
    split <;> simp (maxDischargeDepth := 40) [h]
  unfold castClosed
  split
  · exact h
  · refine takeCharge_cap _ (raiseCast_cap _ _ (e1 _ _ ?_))
    split
    · exact finishStep_cap _ (withCast_cap _ h)
    · exact withCast_cap _ h
@[simp] theorem recordComplete_cap (d : Draft) (q : Seq) (h : Capacity s) : Capacity (recordComplete d q s) := by
  unfold recordComplete
  split
  · simp (maxDischargeDepth := 40) [tariffComplete, h]
  · simp (maxDischargeDepth := 40) [h]
  · simp (maxDischargeDepth := 40) [h]
  · simp (maxDischargeDepth := 40) [settledComplete, h]
  · rename_i b _
    have e : ∀ l, Capacity (raise .periodClosed .none none (.num b.period) (withJournal (fun j => { j with lastClose := l })
        (withDuty (fun u => { u with account := u.account.closePeriod b.yearEnd }) s))) :=
      fun l => raise_cap _ _ _ _ (withJournal_cap _ (withDuty_cap _ h) le_rfl)
    unfold periodComplete
    simp only
    split
    · exact e _
    · exact endClosing_cap _ (e _)
  · simp (maxDischargeDepth := 40) [releaseComplete, h]

@[simp] theorem readBlockDone_cap (a : StoreAnswer) (h : Capacity s) : Capacity (readBlockDone a s) := by
  unfold readBlockDone
  split
  · simp only
    split <;> simp (maxDischargeDepth := 40) [h]
  · exact h
@[simp] theorem readbackDone_cap (a : StoreAnswer) (h : Capacity s) : Capacity (readbackDone a s) := by
  unfold readbackDone
  split
  · simp only
    split <;> simp (maxDischargeDepth := 40) [h]
  · exact h
@[simp] theorem mountComplete_cap (h : Capacity s) : Capacity (mountComplete s) := by
  unfold mountComplete; simp only; repeat' split
  all_goals simp (maxDischargeDepth := 40) [h]
@[simp] theorem mountBlockDone_cap (a : StoreAnswer) (h : Capacity s) : Capacity (mountBlockDone a s) := by
  have e : ∀ (b : List Byte) u, Capacity u → Capacity (withJournal (mountClassify b) u) := by
    intro b u h
    refine withJournal_cap _ h ?_
    unfold mountClassify
    split <;> exact le_rfl
  unfold mountBlockDone
  split
  · simp only
    split <;> simp (maxDischargeDepth := 40) [h, e]
  · exact h

/-! ### Requests -/

@[simp] theorem doStatusRead_cap (p : Nat) (rq : Request) (h : Capacity s) : Capacity (doStatusRead p rq s) := by
  rw [doStatusRead_eq]; simp only; split <;> simp (maxDischargeDepth := 40) [h]
@[simp] theorem doClearConditions_cap (l : List Cond) (rq : Request) (h : Capacity s) :
    Capacity (doClearConditions l rq s) := by
  have e : Capacity (withAgent (fun a => { a with latched := a.latched.filter fun c => !l.contains c }) s) :=
    withAgent_cap _ h le_rfl le_rfl
  unfold doClearConditions
  refine answer_cap _ _ _ _ (leaveConds_cap ?_)
  split
  · exact withLoop_cap _ e rfl (Nat.zero_le _) le_rfl rfl id id
  · exact e
@[simp] theorem doTableWindow_cap (w : Window) (rq : Request) (h : Capacity s) : Capacity (doTableWindow w rq s) := by
  simp (maxDischargeDepth := 40) [doTableWindow, h]
@[simp] theorem doTableWrite_cap (l : List Cell) (rq : Request) (h : Capacity s) : Capacity (doTableWrite l rq s) := by
  unfold doTableWrite
  split
  · simp (maxDischargeDepth := 40) [h]
  · rename_i w _
    split
    · simp (maxDischargeDepth := 40) [h]
    · have e := writeCells_cap w l h
      simp only
      exact answer_cap _ _ _ _ (withAgent_cap _ e le_rfl le_rfl)
@[simp] theorem doTableRead_cap (n : Nat) (rq : Request) (h : Capacity s) : Capacity (doTableRead n rq s) := by
  unfold doTableRead
  split
  · simp (maxDischargeDepth := 40) [h]
  · rename_i w _
    split
    · simp (maxDischargeDepth := 40) [h]
    · have e := readCells_cap w n h
      simp only
      exact answer_cap _ _ _ _ (withAgent_cap _ e le_rfl le_rfl)
@[simp] theorem doPartConfig_cap (c : PartConfig) (rq : Request) (h : Capacity s) : Capacity (doPartConfig c rq s) := by
  simp (maxDischargeDepth := 40) [doPartConfig, h]
@[simp] theorem doResetVessels_cap (rq : Request) (h : Capacity s) : Capacity (doResetVessels rq s) := by
  simp (maxDischargeDepth := 40) [doResetVessels, h]
@[simp] theorem doBrewOpen_cap (f : BrewFields) (rq : Request) (h : Capacity s) : Capacity (doBrewOpen f rq s) :=
  answer_cap _ _ _ _ (openBrew_cap f h)
@[simp] theorem doBrewAssign_cap (n : Nat) (rq : Request) (h : Capacity s) : Capacity (doBrewAssign n rq s) :=
  answer_cap _ _ _ _ (assignBrew_cap n h)
@[simp] theorem doBrewAbandon_cap (n : Nat) (rq : Request) (h : Capacity s) : Capacity (doBrewAbandon n rq s) :=
  answer_cap _ _ _ _ (abandonBrew_cap n h)
@[simp] theorem doBrewRelease_cap (n : Nat) (rq : Request) (h : Capacity s) : Capacity (doBrewRelease n rq s) :=
  answer_cap _ _ _ _ (releaseBrew_cap n h)
@[simp] theorem doBrewRead_cap (n p : Nat) (rq : Request) (h : Capacity s) : Capacity (doBrewRead n p rq s) := by
  unfold doBrewRead; split <;> simp (maxDischargeDepth := 40) [h]
@[simp] theorem doVesselClear_cap (v : Vessel) (rq : Request) (h : Capacity s) : Capacity (doVesselClear v rq s) :=
  answer_cap _ _ _ _ (clearVessel_cap v h)
@[simp] theorem doVesselStart_cap (v : Vessel) (rq : Request) (h : Capacity s) : Capacity (doVesselStart v rq s) := by
  unfold doVesselStart; repeat' split
  all_goals simp (maxDischargeDepth := 40) [h, refuseStart]
@[simp] theorem doGroupStart_cap (g : Nat) (rq : Request) (h : Capacity s) : Capacity (doGroupStart g rq s) :=
  answer_cap _ _ _ _ (foldl_cap _ (fun _ v h => startList_cap v h) _ h)
@[simp] theorem doVesselHalt_cap (v : Vessel) (rq : Request) (h : Capacity s) : Capacity (doVesselHalt v rq s) := by
  unfold doVesselHalt; simp only; split <;> simp (maxDischargeDepth := 40) [h]
@[simp] theorem doContinue_cap (v : Vessel) (rq : Request) (h : Capacity s) : Capacity (doContinue v rq s) :=
  answer_cap _ _ _ _ (continueSeq_cap v h)
@[simp] theorem doAuthority_cap (v : Vessel) (a : Authority) (rq : Request) (h : Capacity s) :
    Capacity (doAuthority v a rq s) := by unfold doAuthority; simp only; split <;> simp (maxDischargeDepth := 40) [h]
@[simp] theorem doLock_cap (m : List Vessel) (b : Bool) (rq : Request) (h : Capacity s) : Capacity (doLock m b rq s) :=
  answer_cap _ _ _ _ (setLocks_cap m b h)
@[simp] theorem doRelease_cap (i : Nat) (rq : Request) (h : Capacity s) : Capacity (doRelease i rq s) := by
  unfold doRelease
  split
  · simp (maxDischargeDepth := 40) [h]
  · rename_i x _
    have e := offer_cap x.released .guardUnit h
    simp only
    split
    · exact answer_cap _ _ _ _ (freeSlot_cap _ e)
    · exact answer_cap _ _ _ _ e
@[simp] theorem doDiscard_cap (i : Nat) (rq : Request) (h : Capacity s) : Capacity (doDiscard i rq s) := by
  unfold doDiscard; split <;> simp (maxDischargeDepth := 40) [h]
@[simp] theorem doCastEnd_cap (rq : Request) (h : Capacity s) : Capacity (doCastEnd rq s) := by
  unfold doCastEnd; simp only; split <;> simp (maxDischargeDepth := 40) [h]
@[simp] theorem doCastRead_cap (p : Nat) (rq : Request) (h : Capacity s) : Capacity (doCastRead p rq s) := by
  unfold doCastRead; split <;> simp (maxDischargeDepth := 40) [h]
@[simp] theorem doCastSettle_cap (c v g : Nat) (rq : Request) (h : Capacity s) : Capacity (doCastSettle c v g rq s) := by
  unfold doCastSettle
  split
  · split
    · unfold settleOrphan; simp only
      split
      · rename_i e
        exact deferReply_cap _ _ (addCharge_cap _ _ (offerRecord_cap e h))
      · simp (maxDischargeDepth := 40) [h]
    · simp (maxDischargeDepth := 40) [h]
  · simp (maxDischargeDepth := 40) [h]
@[simp] theorem doPeriodClose_cap (y : Bool) (rq : Request) (h : Capacity s) : Capacity (doPeriodClose y rq s) := by
  unfold doPeriodClose
  split
  · unfold acceptClose; simp only
    split
    · simp (maxDischargeDepth := 40) [h]
    · rename_i u e
      have hu := offerRecord_cap e h
      refine deferReply_cap _ _ (withDuty_cap _ ?_)
      repeat' split
      · rename_i e2; exact withDuty_cap _ (offerTariff_cap e2 hu)
      · exact hu
      · exact hu
  · simp (maxDischargeDepth := 40) [h]
@[simp] theorem doDutyRead_cap (rq : Request) (h : Capacity s) : Capacity (doDutyRead rq s) := by
  unfold doDutyRead; split <;> simp (maxDischargeDepth := 40) [h]
@[simp] theorem doJournalRead_cap (q : Seq) (n p : Nat) (rq : Request) (h : Capacity s) :
    Capacity (doJournalRead q n p rq s) := by
  unfold doJournalRead; simp only; repeat' split
  all_goals simp (maxDischargeDepth := 40) [h]
@[simp] theorem doJournalRelease_cap (q : Seq) (rq : Request) (h : Capacity s) : Capacity (doJournalRelease q rq s) := by
  unfold doJournalRelease
  split
  · split
    · rename_i e; exact deferReply_cap _ _ (offerRecord_cap e h)
    · simp (maxDischargeDepth := 40) [h]
  · simp (maxDischargeDepth := 40) [h]
@[simp] theorem doJournalRetry_cap (rq : Request) (h : Capacity s) : Capacity (doJournalRetry rq s) := by
  have e : Capacity (retryWrite s) := by unfold retryWrite; split <;> simp (maxDischargeDepth := 40) [h]
  unfold doJournalRetry; split
  · exact answer_cap _ _ _ _ e
  · simp (maxDischargeDepth := 40) [h]

@[simp] theorem queueRequest_cap (q : Queued) (h : Capacity s) : Capacity (queueRequest q s) := by
  unfold queueRequest
  split
  · refine ⟨h.1, h.2, h.3, h.4, h.5, h.6, h.7, h.8, h.9, ?_, h.11, h.12, h.13⟩
    simp; omega
  · simp (maxDischargeDepth := 40) [h]

/-- A request command keeps the rooms its service keeps (R170). -/
theorem onRequest_cap (q : Queued) (f : State → State) (hf : ∀ s, Capacity s → Capacity (f s)) (h : Capacity s) :
    Capacity (onRequest q f s) := by
  unfold onRequest
  split
  · apply settle_cap
    split
    · exact hf _ h
    · rename_i he
      split
      · exact hf _ (withAgent_cap _ h (by simp (maxDischargeDepth := 40) [he]) le_rfl)
      · simp (maxDischargeDepth := 40) [h]
  · exact h

/-! ### Frames -/

@[simp] theorem takeSample_cap (f : Frame) (h : Capacity s) : Capacity (takeSample f s) := by
  have e : ∀ r u, Capacity u → Capacity (deliverSample r u) := by
    intro r u h
    refine castSample_cap _ (foldl_cap _ (fun s v h => ?_) _ h)
    unfold deliverVessel; simp only; repeat' split
    all_goals simp (maxDischargeDepth := 40) [h]
  refine foldl_cap _ (fun s i h => ?_) _ h
  unfold takeItem; repeat' split
  all_goals simp (maxDischargeDepth := 40) [h, e]

@[simp] theorem staleExpired_cap (r : Nat) (h : Capacity s) : Capacity (staleExpired r s) := by
  refine castExpiry_cap _ (foldl_cap _ (fun s v h => ?_) _ (withEntry_cap _ _ h))
  unfold expireVessel; split <;> simp (maxDischargeDepth := 40) [h]

@[simp] theorem takeNotice_cap (f : Frame) (h : Capacity s) : Capacity (takeNotice f s) := by
  have e : ∀ v r c, Capacity (panelNotice v r c s) := by
    intro v r c; cases c <;> simp (maxDischargeDepth := 40) [panelNotice, h]
  unfold takeNotice
  split
  · simp only
    split
    · exact e ..
    · split <;> simp (maxDischargeDepth := 40) [h]
    · exact h
  · exact h

@[simp] theorem frameError_cap (h : Capacity s) : Capacity (frameError s) := by
  refine latch_cap _ ⟨h.1, ?_, h.3, h.4, h.5, h.6, h.7, h.8, h.9, h.10, h.11, h.12, h.13⟩
  simp (maxDischargeDepth := 40) [saturate]

@[simp] theorem enterTransit_cap (f : Frame) (h : Capacity s) : Capacity (enterTransit f s) := by
  unfold enterTransit
  split
  · simp (maxDischargeDepth := 40) [h]
  · refine startNext_held ⟨h.1, h.2, ?_, h.4, h.5, h.6, h.7, h.8, h.9, h.10, h.11, nofun, h.13⟩
    simp [heldPort]; omega

@[simp] theorem guardFrame_cap (f : Frame) (h : Capacity s) : Capacity (guardFrame f s) := by
  unfold guardFrame; split <;> simp (maxDischargeDepth := 40) [h]
@[simp] theorem forwardFrame_cap (f : Frame) (h : Capacity s) : Capacity (forwardFrame f s) := by
  unfold forwardFrame; repeat' split
  all_goals simp (maxDischargeDepth := 40) [h]
@[simp] theorem consumeFrame_cap (f : Frame) (h : Capacity s) : Capacity (consumeFrame f s) := by
  unfold consumeFrame; repeat' split
  all_goals simp (maxDischargeDepth := 40) [h]
@[simp] theorem linkUp_cap (h : Capacity s) : Capacity (linkUp s) := by unfold linkUp; split <;> simp (maxDischargeDepth := 40) [h]
@[simp] theorem frameArrived_cap (f : Frame) (h : Capacity s) : Capacity (frameArrived f s) := by
  unfold frameArrived; simp only; repeat' split
  all_goals simp (maxDischargeDepth := 40) [h]

/-- The reception is set to a buffer short of a frame, or to none. -/
theorem rx_cap (x : Option (List Byte)) (h : Capacity s) (hx : ∀ b, x = some b → b.length < 128) :
    Capacity (withLoop (fun l => { l with rx := x }) s) :=
  ⟨hx, h.2, h.3, h.4, h.5, h.6, h.7, h.8, h.9, h.10, h.11, h.12, h.13⟩

theorem noRx_cap (h : Capacity s) : Capacity (withLoop (fun l => { l with rx := none }) s) :=
  rx_cap none h (fun b hb => by cases hb)

theorem received_more {b x : List Byte} (h : received b = .more x) : x.length < 128 := by
  unfold received at h
  split at h
  · rename_i he
    cases h
    unfold frameLength at he
    rw [Option.map_eq_none_iff, List.getElem?_eq_none_iff] at he
    omega
  · split at h
    · cases h
    · split at h
      · cases h
      · cases h; omega

@[simp] theorem receptionStep_cap (l : List Byte) (h : Capacity s) : Capacity (receptionStep (received l) s) := by
  unfold receptionStep
  split
  · rename_i b hb
    exact rx_cap _ h (fun b' hb' => by cases hb'; exact received_more hb)
  · exact frameError_cap (noRx_cap h)
  · exact frameArrived_cap _ (noRx_cap h)

@[simp] theorem truncate_cap (h : Capacity s) : Capacity (truncate s) := by
  unfold truncate; split
  · exact frameError_cap (noRx_cap h)
  · exact h
@[simp] theorem restartLink_cap (h : Capacity s) : Capacity (restartLink s) := by simp (maxDischargeDepth := 40) [restartLink, h]
@[simp] theorem receiveCharacter_cap (c : Character) (h : Capacity s) : Capacity (receiveCharacter c s) := by
  unfold receiveCharacter; simp only; repeat' split
  · simp (maxDischargeDepth := 40) [h]
  · exact rx_cap _ (truncate_cap (restartLink_cap h)) (fun b hb => by cases hb; decide)
  · simp (maxDischargeDepth := 40) [h]
  · simp (maxDischargeDepth := 40) [h]
  · simp (maxDischargeDepth := 40) [h]
@[simp] theorem receiveFrame_cap (l : List Byte) (h : Capacity s) : Capacity (receiveFrame l s) :=
  receptionStep_cap _ (restartLink_cap h)
@[simp] theorem frameSent_cap (h : Capacity s) : Capacity (frameSent s) := by
  unfold frameSent
  split
  · exact h
  · refine startNext_held ⟨h.1, h.2, ?_, h.4, h.5, h.6, h.7, h.8, h.9, h.10, h.11, nofun, h.13⟩
    exact le_trans (by simp [heldPort]) h.3
  · exact startNext_held ⟨h.1, h.2, h.3, h.4, h.5, h.6, h.7, h.8, h.9, h.10, h.11, nofun, h.13⟩

/-! ### Commands -/

theorem whenActive_cap (f : State → State) (hf : ∀ s, Capacity s → Capacity (f s)) (h : Capacity s) :
    Capacity (whenActive f s) := by
  unfold whenActive; split
  · exact settle_cap (hf _ h)
  · exact h

@[simp] theorem linkExpired_cap (h : Capacity s) : Capacity (linkExpired s) := by simp (maxDischargeDepth := 40) [linkExpired, h]
@[simp] theorem powerFailEffect_cap (h : Capacity s) : Capacity (powerFailEffect s) := by simp (maxDischargeDepth := 40) [powerFailEffect, h]
@[simp] theorem reportExpiry_cap (h : Capacity s) : Capacity (reportExpiry s) := by
  have e : ∀ u, Capacity u → Capacity (reportEvents u) := by
    intro u h; unfold reportEvents; split <;> simp (maxDischargeDepth := 40) [h, dropReported]
  unfold reportExpiry; simp only; split <;> simp (maxDischargeDepth := 40) [h, e]
@[simp] theorem reofferClose_cap (h : Capacity s) : Capacity (reofferClose s) := by
  unfold reofferClose; split <;> simp (maxDischargeDepth := 40) [h]
@[simp] theorem firstActivate_cap (h : Capacity s) : Capacity (firstActivate s) := by
  unfold firstActivate; split
  · rename_i e; exact withDuty_cap _ (offerTariff_cap e h)
  · exact h

theorem cleared_cap (p : Pins) (st : Store) (l : List Instr) : Capacity (State.cleared p st l) :=
  ⟨fun b hb => (by cases hb), Nat.zero_le _, Nat.zero_le _, Nat.zero_le _, List.length_replicate, rfl, rfl,
    Nat.zero_le _, Nat.zero_le _, Nat.zero_le _, Nat.zero_le _, fun _ => ⟨rfl, rfl⟩, nofun⟩

@[simp] theorem addressRead_cap (h : Capacity s) : Capacity (addressRead s) :=
  ⟨h.1, h.2, h.3, h.4, h.5, h.6, h.7, h.8, h.9, h.10, h.11, h.12, h.13⟩

@[simp] theorem startUp_cap (h : Capacity s) : Capacity (startUp s) := by
  unfold startUp
  split
  · exact settle_cap (syncAllCauses_cap (withJournal_cap _ (addressRead_cap h) le_rfl))
  · exact addressRead_cap h

@[simp] theorem fullReset_cap (r : Bool) (a : Byte) (s : State) : Capacity (fullReset r a s) := by
  unfold fullReset; simp only; split
  · exact cleared_cap ..
  · exact startUp_cap (cleared_cap ..)

@[simp] theorem releaseReset_cap (a : Byte) (h : Capacity s) : Capacity (releaseReset a s) := by
  unfold releaseReset; split
  · exact startUp_cap (pins_cap _ h)
  · exact h

end Sys2Proof.Machine
end

