-- ==== Sys2Proof/Laws/Events.lean ====
section
/-! SUPPORT. The events' laws: every operation of the brewing blocks but a change of authority leaves the event queue as
it was, with other events than AUTHORITY_CHANGED and START_REFUSED behind it (R35, R80, R81, R180). -/

namespace Sys2Proof.Machine

variable {r₀ s t : State}

theorem EventsFollow.refl (s : State) : EventsFollow s s := ⟨[], by simp, by simp⟩

/-- The events alone are spoken of. -/
theorem EventsFollow.of_events (h : EventsFollow r₀ s) (e : t.agent.events = s.agent.events) :
    EventsFollow r₀ t := by
  obtain ⟨more, h1, h2⟩ := h
  exact ⟨more, e.trans h1, h2⟩

theorem foldl_quiet {α : Type} (f : State → α → State) (hf : ∀ s a, EventsFollow r₀ s → EventsFollow r₀ (f s a))
    (l : List α) (h : EventsFollow r₀ s) : EventsFollow r₀ (l.foldl f s) := by
  induction l generalizing s with
  | nil => exact h
  | cons a l ih => exact ih (hf _ _ h)

/-! ### Updates of one record -/

@[simp] theorem withVessel_quiet (v : Vessel) (f : VesselRec → VesselRec) (h : EventsFollow r₀ s) :
    EventsFollow r₀ (withVessel v f s) := h.of_events rfl
@[simp] theorem withSeq_quiet (v : Vessel) (f : Sequencer → Sequencer) (h : EventsFollow r₀ s) :
    EventsFollow r₀ (withSeq v f s) := h.of_events rfl
@[simp] theorem withCast_quiet (f : Cast → Cast) (h : EventsFollow r₀ s) :
    EventsFollow r₀ (withCast f s) := h.of_events rfl
@[simp] theorem withPitch_quiet (f : PitchPart → PitchPart) (h : EventsFollow r₀ s) :
    EventsFollow r₀ (withPitch f s) := h.of_events rfl
@[simp] theorem withDuty_quiet (f : Duty → Duty) (h : EventsFollow r₀ s) :
    EventsFollow r₀ (withDuty f s) := h.of_events rfl
@[simp] theorem withBrew_quiet (n : Nat) (f : Brew → Brew) (h : EventsFollow r₀ s) :
    EventsFollow r₀ (withBrew n f s) := h.of_events rfl
@[simp] theorem withEntry_quiet (r : Nat) (f : PointEntry → PointEntry) (h : EventsFollow r₀ s) :
    EventsFollow r₀ (withEntry r f s) := h.of_events rfl
@[simp] theorem withBoilRecord_quiet (n : Nat) (f : BoilRecord → BoilRecord) (h : EventsFollow r₀ s) :
    EventsFollow r₀ (withBoilRecord n f s) := h.of_events rfl
@[simp] theorem withBoil_quiet (f : BoilUnit → BoilUnit) (h : EventsFollow r₀ s) :
    EventsFollow r₀ (withBoil f s) := h.of_events rfl
@[simp] theorem withJournal_quiet (f : Journal → Journal) (h : EventsFollow r₀ s) :
    EventsFollow r₀ (withJournal f s) := h.of_events rfl
@[simp] theorem withLoop_quiet (f : LoopPort → LoopPort) (h : EventsFollow r₀ s) :
    EventsFollow r₀ (withLoop f s) := h.of_events rfl
@[simp] theorem castMeter_quiet (x : CastMeter) (h : EventsFollow r₀ s) :
    EventsFollow r₀ { s with castMeter := x } := h.of_events rfl
@[simp] theorem tells_quiet (x : List Owner) (h : EventsFollow r₀ s) :
    EventsFollow r₀ { s with tells := x } := h.of_events rfl
@[simp] theorem slots_quiet (x : List (Option Hold)) (h : EventsFollow r₀ s) :
    EventsFollow r₀ { s with slots := x } := h.of_events rfl

/-! ### Events and frames -/

@[simp] theorem latch_quiet (c : Cond) (h : EventsFollow r₀ s) : EventsFollow r₀ (latch c s) := by
  obtain ⟨l, e⟩ := latch_eq c s
  rw [e]
  exact h.of_events rfl

/-- An event of another kind joins the tail, is shed, or overflows (R180). -/
@[simp] theorem raise_quiet (k : EventKind) (u : Subject) (b : Option Nat) (a : EventArg)
    (hk : k ≠ .authorityChanged ∧ k ≠ .startRefused) (h : EventsFollow r₀ s) : EventsFollow r₀ (raise k u b a s) := by
  unfold raise
  simp only
  split
  · repeat' split
    all_goals simp [h]
  · obtain ⟨more, h1, h2⟩ := h
    refine ⟨more ++ [⟨s.loopTime, k, u, b, a⟩], by simp [withAgent, h1], ?_⟩
    simp only [List.mem_append, List.mem_singleton]
    rintro e (he | rfl)
    · exact h2 e he
    · exact hk

@[simp] theorem raiseVessel_quiet (k : EventKind) (v : Vessel) (a : EventArg)
    (hk : k ≠ .authorityChanged ∧ k ≠ .startRefused) (h : EventsFollow r₀ s) :
    EventsFollow r₀ (raiseVessel k v a s) :=
  raise_quiet _ _ _ _ hk h
@[simp] theorem raiseBoil_quiet (k : EventKind) (n : Nat) (a : EventArg)
    (hk : k ≠ .authorityChanged ∧ k ≠ .startRefused) (h : EventsFollow r₀ s) : EventsFollow r₀ (raiseBoil k n a s) :=
  raise_quiet _ _ _ _ hk h
@[simp] theorem raiseCast_quiet (k : EventKind) (a : EventArg) (hk : k ≠ .authorityChanged ∧ k ≠ .startRefused)
    (h : EventsFollow r₀ s) : EventsFollow r₀ (raiseCast k a s) := by
  unfold raiseCast; split <;> exact raise_quiet _ _ _ _ hk h

/-! ### Frames offered and conditions -/

@[simp] theorem tellLeft_events (o : Owner) (s : State) : (tellLeft o s).agent.events = s.agent.events := by
  cases o <;> rfl

@[simp] theorem startNext_events (s : State) : (startNext s).agent.events = s.agent.events := by
  unfold startNext
  repeat' split
  all_goals first
    | rfl
    | exact tellLeft_events ..

@[simp] theorem enterQueue_events (f : Frame) (o : Owner) (s : State) :
    (enterQueue f o s).2.agent.events = s.agent.events := by
  unfold enterQueue; simp only; split
  · rfl
  · exact startNext_events _

@[simp] theorem latch_events (c : Cond) (s : State) : (latch c s).agent.events = s.agent.events := by
  obtain ⟨l, e⟩ := latch_eq c s
  rw [e]

/-- No offer touches the event queue. -/
@[simp] theorem offer_events (f : Frame) (o : Owner) (s : State) : (offer f o s).2.agent.events = s.agent.events := by
  unfold offer; simp only
  repeat' split
  all_goals simp

@[simp] theorem offer_quiet (f : Frame) (o : Owner) (h : EventsFollow r₀ s) : EventsFollow r₀ (offer f o s).2 :=
  h.of_events (offer_events ..)
@[simp] theorem offerDrive_quiet (r d : Nat) (o : Owner) (h : EventsFollow r₀ s) :
    EventsFollow r₀ (offerDrive r d o s).2 := by
  unfold offerDrive; split <;> simp [h]
@[simp] theorem answer_quiet (c : Nat) (rq : Request) (r : Result) (x : List Byte) (h : EventsFollow r₀ s) :
    EventsFollow r₀ (answer c rq r x s) := offer_quiet _ _ h

theorem attention_events (s : State) : (attention s).agent.events = s.agent.events := by
  have e := offer_events (reportFrame s 1 (condMask s.agent.conditions)) .agent s
  unfold attention
  split
  · rfl
  · simp only
    split <;> exact e

@[simp] theorem joinIfCaused_quiet (c : Cond) (h : EventsFollow r₀ s) : EventsFollow r₀ (joinIfCaused s c) := by
  unfold joinIfCaused joinCond
  simp only
  repeat' split
  all_goals first
    | exact h
    | exact h.of_events (attention_events _)

@[simp] theorem leaveConds_quiet (h : EventsFollow r₀ s) : EventsFollow r₀ (leaveConds s) := h.of_events rfl

@[simp] theorem syncConditions_quiet (h : EventsFollow r₀ s) : EventsFollow r₀ (syncConditions s) := by
  unfold syncConditions
  split
  · exact joinIfCaused_quiet _ (foldl_quiet _ (fun _ c => joinIfCaused_quiet c) _ (leaveConds_quiet h))
  · exact h

/-! ### Hold slots, the pump and the Pitch Unit -/

@[simp] theorem freeSlot_quiet (i : Nat) (h : EventsFollow r₀ s) : EventsFollow r₀ (freeSlot i s) := h.of_events rfl

@[simp] theorem emptySlots_quiet (p : Hold → Bool) (h : EventsFollow r₀ s) : EventsFollow r₀ (emptySlots p s) :=
  foldl_quiet _ (fun s i h => by
    unfold emptySlot
    repeat' split
    all_goals simp (maxDischargeDepth := 40) [h]) _ h

@[simp] theorem slotsAtStepEnd_quiet (v : Vessel) (n : Nat) (h : EventsFollow r₀ s) :
    EventsFollow r₀ (slotsAtStepEnd v n s) :=
  emptySlots_quiet _ h
@[simp] theorem slotsAtStepBegin_quiet (v : Vessel) (h : EventsFollow r₀ s) :
    EventsFollow r₀ (slotsAtStepBegin v s) :=
  emptySlots_quiet _ h
@[simp] theorem slotsOfVessel_quiet (v : Vessel) (h : EventsFollow r₀ s) : EventsFollow r₀ (slotsOfVessel v s) :=
  emptySlots_quiet _ h

@[simp] theorem holdFrame_quiet (f : Frame) (v : Vessel) (r : Nat) (h : EventsFollow r₀ s) :
    EventsFollow r₀ (holdFrame f v r s) :=
  by
  unfold holdFrame; split <;> simp (maxDischargeDepth := 40) [h]
@[simp] theorem expireSlot_quiet (i : Nat) (h : EventsFollow r₀ s) : EventsFollow r₀ (expireSlot i s) := by
  unfold expireSlot; split <;> simp (maxDischargeDepth := 40) [h]

@[simp] theorem drivePump_quiet (d : Nat) (h : EventsFollow r₀ s) : EventsFollow r₀ (drivePump d s) :=
  by simp (maxDischargeDepth :=
  40) [drivePump_eq, h]
@[simp] theorem reofferPump_quiet (h : EventsFollow r₀ s) : EventsFollow r₀ (reofferPump s) := by
  unfold reofferPump; split <;> simp (maxDischargeDepth := 40) [h]
@[simp] theorem pausedEntry_quiet (h : EventsFollow r₀ s) : EventsFollow r₀ (pausedEntry s) := by
  unfold pausedEntry; split <;> simp (maxDischargeDepth := 40) [h]
@[simp] theorem reviewPauses_quiet (h : EventsFollow r₀ s) : EventsFollow r₀ (reviewPauses s) := by
  unfold reviewPauses; simp only; repeat' split
  all_goals simp (maxDischargeDepth := 40) [h]

@[simp] theorem testLag_quiet (h : EventsFollow r₀ s) : EventsFollow r₀ (testLag s) := by simp (maxDischargeDepth :=
  40) [testLag, h]

@[simp] theorem tryIssue_quiet (h : EventsFollow r₀ s) : EventsFollow r₀ (tryIssue s) := by
  unfold tryIssue
  split
  · exact h
  · rename_i c _
    split
    · exact h
    · split
      · have e := offerDrive_quiet (lineRow s.tables).dose 1000 (.pitchUnit c.number) h
        split <;> (rename_i hh; rw [hh] at e; simp [e])
      · exact h

@[simp] theorem newGv_quiet (h : EventsFollow r₀ s) : EventsFollow r₀ (newGv s) :=
  by unfold newGv; split <;> simp (maxDischargeDepth :=
  40) [h]
@[simp] theorem doseFrameLeft_quiet (n : Nat) (h : EventsFollow r₀ s) : EventsFollow r₀ (doseFrameLeft n s) := by
  unfold doseFrameLeft; simp only; split <;> simp (maxDischargeDepth := 40) [h]
@[simp] theorem strokeDonePart_quiet (h : EventsFollow r₀ s) : EventsFollow r₀ (strokeDonePart s) := by
  unfold strokeDonePart; repeat' split
  all_goals simp (maxDischargeDepth := 40) [h]
@[simp] theorem strokeTimeoutPart_quiet (h : EventsFollow r₀ s) : EventsFollow r₀ (strokeTimeoutPart s) := by
  unfold strokeTimeoutPart; split
  · exact h
  · simp only; split <;> simp (maxDischargeDepth := 40) [h]

/-! ### The Cast Meter -/

@[simp] theorem changeBrewState_quiet (n : Nat) (st : BrewState) (u : Subject) (h : EventsFollow r₀ s) :
    EventsFollow r₀ (changeBrewState n st u s) := by simp (maxDischargeDepth := 40) [changeBrewState, h]

theorem offerRecord_quiet {d : Draft} (e : offerRecord d s = some t) (h : EventsFollow r₀ s) : EventsFollow r₀ t := by
  unfold offerRecord at e
  split at e
  · cases e
    exact h.of_events rfl
  · cases e

@[simp] theorem castAttempt_quiet (h : EventsFollow r₀ s) : EventsFollow r₀ (castAttempt s).2 := by
  have e : ∀ b, EventsFollow r₀ (openCast b s) := by
    intro b
    unfold openCast; simp only
    split
    · exact h
    · rename_i hh
      exact changeBrewState_quiet _ _ _ (withBrew_quiet _ _
        (castMeter_quiet _ (withJournal_quiet _ (offerRecord_quiet hh h))))
  unfold castAttempt; repeat' split
  all_goals first | exact h | exact e _

@[simp] theorem flowSample_quiet (c : BitVec 32) (h : EventsFollow r₀ s) : EventsFollow r₀ (flowSample c s) := by
  unfold flowSample; simp only; repeat' split
  all_goals simp (maxDischargeDepth := 40) [h]
@[simp] theorem enterSettling_quiet (h : EventsFollow r₀ s) : EventsFollow r₀ (enterSettling s) :=
  by simp (maxDischargeDepth :=
  40) [enterSettling, h]
@[simp] theorem addCharge_quiet (n : Nat) (d : DutyPart) (h : EventsFollow r₀ s) :
    EventsFollow r₀ (addCharge n d s) :=
  withDuty_quiet _ h

@[simp] theorem offerClose_quiet (d : Draft) (h : EventsFollow r₀ s) : EventsFollow r₀ (offerClose d s) := by
  unfold offerClose; simp only
  split
  · rename_i t e
    have := offerRecord_quiet e h
    repeat' split
    all_goals simp (maxDischargeDepth := 40) [this]
  · simp (maxDischargeDepth := 40) [h]

@[simp] theorem enterCharging_quiet (h : EventsFollow r₀ s) : EventsFollow r₀ (enterCharging s) := by
  unfold enterCharging; split <;> simp (maxDischargeDepth := 40) [h]
@[simp] theorem maybeCharge_quiet (h : EventsFollow r₀ s) : EventsFollow r₀ (maybeCharge s) := by
  unfold maybeCharge; repeat' split
  all_goals simp (maxDischargeDepth := 40) [h]
@[simp] theorem settleExpiry_quiet (h : EventsFollow r₀ s) : EventsFollow r₀ (settleExpiry s) :=
  by simp (maxDischargeDepth :=
  40) [settleExpiry, h]
@[simp] theorem strokeDone_quiet (h : EventsFollow r₀ s) : EventsFollow r₀ (strokeDone s) :=
  by simp (maxDischargeDepth :=
  40) [strokeDone, h]
@[simp] theorem strokeTimeout_quiet (h : EventsFollow r₀ s) : EventsFollow r₀ (strokeTimeout s) :=
  by simp (maxDischargeDepth :=
  40) [strokeTimeout, h]
@[simp] theorem endTrigger_quiet (c : EndCause) (h : EventsFollow r₀ s) : EventsFollow r₀ (endTrigger c s) := by
  unfold endTrigger; repeat' split
  all_goals simp (maxDischargeDepth := 40) [h]
@[simp] theorem castPowerFail_quiet (h : EventsFollow r₀ s) : EventsFollow r₀ (castPowerFail s) := by
  unfold castPowerFail; repeat' split
  all_goals simp (maxDischargeDepth := 40) [h]
@[simp] theorem castOpened_quiet (h : EventsFollow r₀ s) : EventsFollow r₀ (castOpened s) := by
  have e : ∀ u, EventsFollow r₀ u → EventsFollow r₀ (castStepInEffect u) := by
    intro u h; unfold castStepInEffect; split <;> simp (maxDischargeDepth := 40) [h]
  unfold castOpened; simp only; repeat' split
  all_goals simp (maxDischargeDepth := 40) [h, e]
@[simp] theorem castSample_quiet (r : Nat) (h : EventsFollow r₀ s) : EventsFollow r₀ (castSample r s) := by
  unfold castSample; simp only; repeat' split
  all_goals simp (maxDischargeDepth := 40) [h]
@[simp] theorem castExpiry_quiet (r : Nat) (h : EventsFollow r₀ s) : EventsFollow r₀ (castExpiry r s) := by
  unfold castExpiry; simp only; split <;> simp (maxDischargeDepth := 40) [h]
@[simp] theorem castLevel_quiet (x : Int) (h : EventsFollow r₀ s) : EventsFollow r₀ (castLevel x s) := by
  unfold castLevel; simp only; split <;> simp (maxDischargeDepth := 40) [h]

/-! ### The Boil Unit -/

@[simp] theorem recordMissed_quiet (n i : Nat) (c : MissCause) (h : EventsFollow r₀ s) :
    EventsFollow r₀ (recordMissed n i c s) :=
  by
  simp (maxDischargeDepth := 40) [recordMissed, h]
@[simp] theorem recordFired_quiet (n i : Nat) (h : EventsFollow r₀ s) : EventsFollow r₀ (recordFired n i s) := by
  simp (maxDischargeDepth := 40) [recordFired, h]
@[simp] theorem offerAddition_quiet (e : SendEntry) (h : EventsFollow r₀ s) : EventsFollow r₀ (offerAddition e s).2 :=
  by
  unfold offerAddition; repeat' split
  all_goals simp (maxDischargeDepth := 40) [h]
@[simp] theorem popSend_quiet (h : EventsFollow r₀ s) : EventsFollow r₀ (popSend s) := by simp (maxDischargeDepth :=
  40) [popSend, h]

@[simp] theorem pumpSend_quiet (n : Nat) (h : EventsFollow r₀ s) : EventsFollow r₀ (pumpSend n s) := by
  induction n generalizing s with
  | zero => exact h
  | succ n ih =>
    unfold pumpSend
    split
    · exact h
    · split
      · simp (maxDischargeDepth := 40) [h]
      · rename_i e _ _
        split
        · exact ih (popSend_quiet h)
        · have hh := offerAddition_quiet e h
          split <;> (rename_i he; rw [he] at hh; simp (maxDischargeDepth := 40) [hh, ih])

@[simp] theorem boilPump_quiet (h : EventsFollow r₀ s) : EventsFollow r₀ (boilPump s) := pumpSend_quiet _ h
@[simp] theorem boilFrameLeft_quiet (h : EventsFollow r₀ s) : EventsFollow r₀ (boilFrameLeft s) :=
  by simp (maxDischargeDepth :=
  40) [boilFrameLeft, h]

@[simp] theorem joinSend_quiet (n i : Nat) (a : AdditionRow) (h : EventsFollow r₀ s) :
    EventsFollow r₀ (joinSend n i a s) :=
  by
  unfold joinSend; simp only
  split
  · exact boilPump_quiet (h.of_events rfl)
  · simp (maxDischargeDepth := 40) [h]

@[simp] theorem walkAdditions_quiet (b : Brew) (n : Nat) (h : EventsFollow r₀ s) :
    EventsFollow r₀ (walkAdditions b n s) :=
  by
  induction n generalizing s with
  | zero => exact h
  | succ n ih =>
    unfold walkAdditions
    simp only
    repeat' split
    all_goals simp (maxDischargeDepth := 40) [h, ih]

@[simp] theorem resolvePending_quiet (i : Nat) (h : EventsFollow r₀ s) : EventsFollow r₀ (resolvePending i s) := by
  simp (maxDischargeDepth := 40) [resolvePending, h]
@[simp] theorem boilContinue_quiet (h : EventsFollow r₀ s) : EventsFollow r₀ (boilContinue s) := by
  unfold boilContinue; split <;> simp (maxDischargeDepth := 40) [h]
@[simp] theorem confirmExpiry_quiet (h : EventsFollow r₀ s) : EventsFollow r₀ (confirmExpiry s) := by
  unfold confirmExpiry; split <;> simp (maxDischargeDepth := 40) [h]
@[simp] theorem boilAfresh_quiet (h : EventsFollow r₀ s) : EventsFollow r₀ (boilAfresh s) :=
  by simp (maxDischargeDepth :=
  40) [boilAfresh, h]
@[simp] theorem beginBoil_quiet (b : Brew) (h : EventsFollow r₀ s) : EventsFollow r₀ (beginBoil b s) :=
  by simp (maxDischargeDepth :=
  40) [beginBoil, h]
@[simp] theorem accrueBoil_quiet (n d : Nat) (h : EventsFollow r₀ s) : EventsFollow r₀ (accrueBoil n d s) :=
  by simp (maxDischargeDepth :=
  40) [accrueBoil, h]

theorem recordAll_quiet {α : Type} (g : α → Nat) (n : Nat) (c : MissCause) (l : List α) (h : EventsFollow r₀ s) :
    EventsFollow r₀ (l.foldl (fun s i => recordMissed n (g i) c s) s) :=
  foldl_quiet _ (fun _ _ h => recordMissed_quiet _ _ _ h) l h

@[simp] theorem missRest_quiet (b : Brew) (h : EventsFollow r₀ s) : EventsFollow r₀ (missRest b s) := by
  unfold missRest; simp only
  exact recordAll_quiet (fun i => i) _ _ _ (by simp (maxDischargeDepth := 40) [h])

@[simp] theorem completeBoil_quiet (b : Brew) (h : EventsFollow r₀ s) : EventsFollow r₀ (completeBoil b s) := by
  have e := missRest_quiet b h
  unfold completeBoil; simp only
  repeat' split
  all_goals simp (maxDischargeDepth := 40) [e]

@[simp] theorem boilStages_quiet (b : Brew) (x : Int) (p : Option Int) (d : Nat) (h : EventsFollow r₀ s) :
    EventsFollow r₀ (boilStages b x p d s) := by
  unfold boilStages; simp only
  repeat' split
  all_goals simp (maxDischargeDepth := 40) [h]

@[simp] theorem haltBoilStep_quiet (n : Nat) (h : EventsFollow r₀ s) : EventsFollow r₀ (haltBoilStep n s) := by
  unfold haltBoilStep; simp only; repeat' split
  all_goals simp (maxDischargeDepth := 40) [h]

@[simp] theorem dropSends_quiet (n : Nat) (h : EventsFollow r₀ s) : EventsFollow r₀ (dropSends n s) := by
  unfold dropSends; simp only
  exact withBoil_quiet _ h
@[simp] theorem haltSends_quiet (n : Nat) (h : EventsFollow r₀ s) : EventsFollow r₀ (haltSends n s) :=
  recordAll_quiet (fun e : SendEntry => e.index) _ _ _ (dropSends_quiet n h)

/-! ### Drives and sequencers -/

@[simp] theorem seqOffer_quiet (v : Vessel) (u : UnsentOffer) (h : EventsFollow r₀ s) :
    EventsFollow r₀ (seqOffer v u s).2 :=
  by
  simp (maxDischargeDepth := 40) [seqOffer_eq, h]
@[simp] theorem stepDrive_quiet (v : Vessel) (u : UnsentOffer) (h : EventsFollow r₀ s) :
    EventsFollow r₀ (stepDrive v u s).2 :=
  by
  rw [stepDrive_eq]; simp only; split <;> simp (maxDischargeDepth := 40) [h]
@[simp] theorem transferDrive_quiet (v : Vessel) (r : Option Nat) (d : Nat) (h : EventsFollow r₀ s) :
    EventsFollow r₀ (transferDrive v r d s) := by unfold transferDrive; split <;> simp (maxDischargeDepth := 40) [h]
@[simp] theorem transferOn_quiet (v : Vessel) (st : StepRow) (h : EventsFollow r₀ s) :
    EventsFollow r₀ (transferOn v st s) :=
  by
  simp (maxDischargeDepth := 40) [transferOn, h]
@[simp] theorem transferOff_quiet (v : Vessel) (st : StepRow) (h : EventsFollow r₀ s) :
    EventsFollow r₀ (transferOff v st s) :=
  by
  simp (maxDischargeDepth := 40) [transferOff, h]
@[simp] theorem offerHeat_quiet (v : Vessel) (d : Nat) (h : EventsFollow r₀ s) : EventsFollow r₀ (offerHeat v d s) :=
  by
  unfold offerHeat; simp only
  repeat' split
  all_goals simp (maxDischargeDepth := 40) [h]
@[simp] theorem forceZero_quiet (v : Vessel) (h : EventsFollow r₀ s) : EventsFollow r₀ (forceZero v s) := by
  unfold forceZero; split <;> simp (maxDischargeDepth := 40) [h]
@[simp] theorem heatDemand_quiet (v : Vessel) (d : Nat) (h : EventsFollow r₀ s) :
    EventsFollow r₀ (heatDemand v d s) :=
  by
  unfold heatDemand; simp only; split <;> simp (maxDischargeDepth := 40) [h]
@[simp] theorem refreshSync_quiet (v : Vessel) (h : EventsFollow r₀ s) : EventsFollow r₀ (refreshSync s v) := by
  unfold refreshSync; simp (maxDischargeDepth := 40) [h]

@[simp] theorem beginStep_quiet (v : Vessel) (n : Nat) (h : EventsFollow r₀ s) : EventsFollow r₀ (beginStep v n s) :=
  by
  unfold beginStep; simp only; repeat' split
  all_goals simp (maxDischargeDepth := 40) [h]
@[simp] theorem endStep_quiet (v : Vessel) (h : EventsFollow r₀ s) : EventsFollow r₀ (endStep v s) := by
  unfold endStep; simp only; split <;> simp (maxDischargeDepth := 40) [h]
@[simp] theorem finishStep_quiet (v : Vessel) (h : EventsFollow r₀ s) : EventsFollow r₀ (finishStep v s) := by
  unfold finishStep; simp only; split <;> simp (maxDischargeDepth := 40) [h]
@[simp] theorem transferInEffect_quiet (v : Vessel) (st : StepRow) (h : EventsFollow r₀ s) :
    EventsFollow r₀ (transferInEffect v st s) := by simp (maxDischargeDepth := 40) [transferInEffect, h]
@[simp] theorem openTransfer_quiet (v w : Vessel) (st : StepRow) (h : EventsFollow r₀ s) :
    EventsFollow r₀ (openTransfer v w st s) := by unfold openTransfer; simp only; split <;> simp (maxDischargeDepth :=
  40) [h]
@[simp] theorem blockStep_quiet (v : Vessel) (r : BlockReason) (h : EventsFollow r₀ s) :
    EventsFollow r₀ (blockStep v r s) :=
  withSeq_quiet _ _ h
@[simp] theorem inEffect_quiet (v : Vessel) (st : StepRow) (f : Sequencer → Sequencer) (h : EventsFollow r₀ s) :
    EventsFollow r₀ (inEffect v st f s) := by unfold inEffect; simp only; split <;> simp (maxDischargeDepth := 40) [h]
@[simp] theorem offerStepFrame_quiet (v : Vessel) (st : StepRow) (h : EventsFollow r₀ s) :
    EventsFollow r₀ (offerStepFrame v st s).2 := by
  unfold offerStepFrame
  split
  · rename_i row _
    exact stepDrive_quiet v { row := row, demand := st.value, ofStep := true } h
  · simp (maxDischargeDepth := 40) [h]

@[simp] theorem takeEffect_quiet (v : Vessel) (h : EventsFollow r₀ s) : EventsFollow r₀ (takeEffect v s).2 := by
  unfold takeEffect
  split
  · exact h
  · split
    · split <;> simp (maxDischargeDepth := 40) [h]
    all_goals try simp (maxDischargeDepth := 40) [h]
    · split
      · exact h
      · repeat' split
        all_goals simp (maxDischargeDepth := 40) [h]
    · have e := castAttempt_quiet h
      split <;> (rename_i hh; rw [hh] at e; simp (maxDischargeDepth := 40) [e])

@[simp] theorem advance_quiet (n : Nat) (v : Vessel) (h : EventsFollow r₀ s) : EventsFollow r₀ (advance n v s) := by
  induction n generalizing s with
  | zero => exact h
  | succ n ih =>
    have e := takeEffect_quiet v h
    unfold advance
    split
    · rename_i hh; rw [hh] at e; exact e
    · rename_i hh; rw [hh] at e
      simp only
      split
      · split
        · split
          · exact ih (beginStep_quiet _ _ (finishStep_quiet _ e))
          · exact beginStep_quiet _ _ (finishStep_quiet _ e)
        · exact finishStep_quiet _ e
      · exact finishStep_quiet _ e

@[simp] theorem startAt_quiet (v : Vessel) (n : Nat) (h : EventsFollow r₀ s) : EventsFollow r₀ (startAt v n s) := by
  unfold startAt; simp only; split <;> simp (maxDischargeDepth := 40) [h]
@[simp] theorem completeStep_quiet (v : Vessel) (h : EventsFollow r₀ s) : EventsFollow r₀ (completeStep v s) := by
  unfold completeStep; simp only; repeat' split
  all_goals simp (maxDischargeDepth := 40) [h]
@[simp] theorem becomeIdle_quiet (v : Vessel) (h : EventsFollow r₀ s) : EventsFollow r₀ (becomeIdle v s) :=
  by simp (maxDischargeDepth :=
  40) [becomeIdle, h]
@[simp] theorem emptyVessel_quiet (v : Vessel) (h : EventsFollow r₀ s) : EventsFollow r₀ (emptyVessel v s) :=
  withVessel_quiet _ _ h
@[simp] theorem advanceBrew_quiet (n : Nat) (w : Vessel) (h : EventsFollow r₀ s) :
    EventsFollow r₀ (advanceBrew n w s) :=
  by
  unfold advanceBrew; split <;> simp (maxDischargeDepth := 40) [h]
@[simp] theorem settleIn_quiet (n : Nat) (w : Vessel) (h : EventsFollow r₀ s) : EventsFollow r₀ (settleIn n w s) := by
  simp (maxDischargeDepth := 40) [settleIn, h]
@[simp] theorem completeTransfer_quiet (v : Vessel) (st : StepRow) (h : EventsFollow r₀ s) :
    EventsFollow r₀ (completeTransfer v st s) := by
  unfold completeTransfer; simp only; repeat' split
  all_goals simp (maxDischargeDepth := 40) [h]
@[simp] theorem suspend_quiet (v : Vessel) (h : EventsFollow r₀ s) : EventsFollow r₀ (suspend v s) := by
  unfold suspend; simp only; split <;> simp (maxDischargeDepth := 40) [h]
@[simp] theorem leftSuspended_quiet (v : Vessel) (h : EventsFollow r₀ s) : EventsFollow r₀ (leftSuspended v s) := by
  unfold leftSuspended; split <;> simp (maxDischargeDepth := 40) [h]
@[simp] theorem retryStep_quiet (v : Vessel) (h : EventsFollow r₀ s) : EventsFollow r₀ (retryStep v s) := by
  unfold retryStep; simp only; split <;> simp (maxDischargeDepth := 40) [h]
@[simp] theorem resumeStep_quiet (v : Vessel) (st : StepRow) (h : EventsFollow r₀ s) :
    EventsFollow r₀ (resumeStep v st s) :=
  by
  unfold resumeStep; simp only
  split
  all_goals try simp (maxDischargeDepth := 40) [h]
  · split <;> simp (maxDischargeDepth := 40) [h]
  · have e := offerStepFrame_quiet v st (withSeq_quiet v (fun q => { q with state := .running }) h)
    split <;> (rename_i hh; rw [hh] at e; simp (maxDischargeDepth := 40) [e])
@[simp] theorem resume_quiet (v : Vessel) (h : EventsFollow r₀ s) : EventsFollow r₀ (resume v s) := by
  unfold resume
  split
  · exact h
  · split <;> simp (maxDischargeDepth := 40) [h]
@[simp] theorem syncCauses_quiet (v : Vessel) (h : EventsFollow r₀ s) : EventsFollow r₀ (syncCauses v s) := by
  unfold syncCauses; simp only; repeat' split
  all_goals simp (maxDischargeDepth := 40) [h]
@[simp] theorem syncAllCauses_quiet (h : EventsFollow r₀ s) : EventsFollow r₀ (syncAllCauses s) :=
  foldl_quiet _ (fun _ v h => syncCauses_quiet v h) _ h
@[simp] theorem haltStep_quiet (v : Vessel) (h : EventsFollow r₀ s) : EventsFollow r₀ (haltStep v s) := by
  unfold haltStep; simp only; repeat' split
  all_goals simp (maxDischargeDepth := 40) [h]
@[simp] theorem becomeHalted_quiet (v : Vessel) (h : EventsFollow r₀ s) : EventsFollow r₀ (becomeHalted v s) := by
  simp (maxDischargeDepth := 40) [becomeHalted, h]
@[simp] theorem halt_quiet (v : Vessel) (r : Bool) (h : EventsFollow r₀ s) : EventsFollow r₀ (halt v r s) := by
  unfold halt; repeat' split
  all_goals simp (maxDischargeDepth := 40) [h]
@[simp] theorem startList_quiet (v : Vessel) (h : EventsFollow r₀ s) : EventsFollow r₀ (startList v s) :=
  by simp (maxDischargeDepth :=
  40) [startList, h]
@[simp] theorem continueSeq_quiet (v : Vessel) (h : EventsFollow r₀ s) : EventsFollow r₀ (continueSeq v s).2 := by
  unfold continueSeq
  split
  · exact h
  · simp only; repeat' split
    all_goals simp (maxDischargeDepth := 40) [h]

@[simp] theorem offerAndComplete_quiet (v : Vessel) (d : Nat) (b : Bool) (h : EventsFollow r₀ s) :
    EventsFollow r₀ (offerAndComplete v d b s) := by
  unfold offerAndComplete; simp only; repeat' split
  all_goals simp (maxDischargeDepth := 40) [h]
@[simp] theorem heatCompute_quiet (v : Vessel) (x y : Int) (d : Nat) (h : EventsFollow r₀ s) :
    EventsFollow r₀ (heatCompute v x y d s).2 := by unfold heatCompute; simp (maxDischargeDepth := 40) [h]
@[simp] theorem rampSample_quiet (v : Vessel) (st : StepRow) (x : Int) (d : Nat) (h : EventsFollow r₀ s) :
    EventsFollow r₀ (rampSample v st x d s) := by simp (maxDischargeDepth := 40) [rampSample_eq, h]
@[simp] theorem holdSample_quiet (v : Vessel) (st : StepRow) (x : Int) (p : Option Int) (d : Nat)
    (h : EventsFollow r₀ s) :
    EventsFollow r₀ (holdSample v st x p d s) := by
  unfold holdSample; simp only; repeat' split
  all_goals simp (maxDischargeDepth := 40) [h, heatCompute]
@[simp] theorem boilSample_quiet (st : StepRow) (x : Int) (p : Option Int) (d : Nat) (h : EventsFollow r₀ s) :
    EventsFollow r₀ (boilSample st x p d s) := by
  unfold boilSample
  split
  · exact h
  · simp only; repeat' split
    all_goals simp (maxDischargeDepth := 40) [h]
@[simp] theorem workSample_quiet (v : Vessel) (e : PointEntry) (h : EventsFollow r₀ s) :
    EventsFollow r₀ (workSample v e s) :=
  by
  unfold workSample
  split
  · simp only; repeat' split
    all_goals simp (maxDischargeDepth := 40) [h]
  · exact h
@[simp] theorem pvSample_quiet (v : Vessel) (r : Nat) (h : EventsFollow r₀ s) : EventsFollow r₀ (pvSample v r s) := by
  unfold pvSample; simp only; repeat' split
  all_goals simp (maxDischargeDepth := 40) [h]
@[simp] theorem levelSample_quiet (v : Vessel) (r : Nat) (h : EventsFollow r₀ s) :
    EventsFollow r₀ (levelSample v r s) :=
  by
  unfold levelSample; simp only; repeat' split
  all_goals simp (maxDischargeDepth := 40) [h]
@[simp] theorem pvExpiry_quiet (v : Vessel) (h : EventsFollow r₀ s) : EventsFollow r₀ (pvExpiry v s) := by
  unfold pvExpiry; simp only; split <;> simp (maxDischargeDepth := 40) [h]
@[simp] theorem reofferUnsent_quiet (v : Vessel) (u : UnsentOffer) (h : EventsFollow r₀ s) :
    EventsFollow r₀ (reofferUnsent v u s).2 := by
  show EventsFollow r₀ (if u.ofStep || transferNames s v u.row then stepDrive v u s else seqOffer v u s).2
  split <;> simp (maxDischargeDepth := 40) [h]
@[simp] theorem reofferAll_quiet (v : Vessel) (l : List UnsentOffer) (h : EventsFollow r₀ s) :
    EventsFollow r₀ (reofferAll v l s).2 := by
  unfold reofferAll
  suffices ∀ (b : Bool) (s : State), EventsFollow r₀ s →
      EventsFollow r₀ (l.foldl (fun a u => ((a.1 || (reofferUnsent v u a.2).1, (reofferUnsent v u a.2).2) : Bool × State))
        (b, s)).2 from this false s h
  clear h
  induction l with
  | nil => intro b s h; exact h
  | cons u l ih => intro b s h; exact ih _ _ (reofferUnsent_quiet v u h)
@[simp] theorem refreshExpiry_quiet (v : Vessel) (h : EventsFollow r₀ s) : EventsFollow r₀ (refreshExpiry v s) := by
  rw [refreshExpiry_eq]; simp only; repeat' split
  all_goals simp (maxDischargeDepth := 40) [h]

@[simp] theorem drainTells_quiet (n : Nat) (h : EventsFollow r₀ s) : EventsFollow r₀ (drainTells n s) := by
  induction n generalizing s with
  | zero => exact h
  | succ n ih =>
    unfold drainTells
    split
    · exact h
    · simp only
      apply ih
      split <;> simp (maxDischargeDepth := 40) [h]

/-- The end of a command changes no authority. -/
@[simp] theorem settle_quiet (h : EventsFollow r₀ s) : EventsFollow r₀ (settle s) :=
  tells_quiet _ (syncConditions_quiet (foldl_quiet _ (fun _ v h => refreshSync_quiet v h) _ (drainTells_quiet _ h)))

/-! ### The Cast Meter told of an authority -/

@[simp] theorem tellCast_quiet (v : Vessel) (a : Authority) (h : EventsFollow r₀ s) :
    EventsFollow r₀ (tellCast v a s) :=
  by
  unfold tellCast; simp only; repeat' split
  all_goals simp (maxDischargeDepth := 40) [h]

end Sys2Proof.Machine
end

