-- ==== Sys2Proof/Laws/PerInstr.lean ====
section
/-! SUPPORT. A law of every command as syntax: the request frame a command is served by is one the ring can carry, and
it names that command. -/

namespace Sys2Proof.Laws

open Sys2Proof.Machine

/-- The MANAGE frame in the request queue that a request command serves (R170, R172); no other command serves one. -/
def carriedIn : Instr → Option Queued
  | .fullReset _ _ => none
  | .frameComplete _ => none
  | .linkTimerExpiry => none
  | .downstreamFrameSent => none
  | .staleExpiry _ => none
  | .holdSlotExpiry _ => none
  | .refreshTimerExpiry _ => none
  | .holdTimerExpiry _ => none
  | .transferUnblocked _ => none
  | .confirmTimerExpiry => none
  | .castOpenRetry => none
  | .strokeTimerExpiry => none
  | .settleTimerExpiry => none
  | .castCloseReoffer => none
  | .firstActivation => none
  | .powerFailWarning => none
  | .powerWarningWithdrawn => none
  | .journalProtectAsserted => none
  | .journalProtectWithdrawn => none
  | .journalWriteBegin => none
  | .journalEraseDone => none
  | .journalProgramDone => none
  | .journalReadbackDone _ => none
  | .journalReadBlockDone _ => none
  | .mountBlockReadDone _ => none
  | .reportTimerExpiry => none
  | .statusRead r => some (queuedOf 1 r)
  | .clearConditions r => some (queuedOf 2 r)
  | .tableWindow r => some (queuedOf 3 r)
  | .tableWrite r => some (queuedOf 4 r)
  | .tableRead r => some (queuedOf 5 r)
  | .partConfig r => some (queuedOf 6 r)
  | .resetFull r _ => some (queuedOf 7 r)
  | .resetVessels r => some (queuedOf 7 r)
  | .brewOpen r => some (queuedOf 8 r)
  | .brewAssign r => some (queuedOf 9 r)
  | .brewAbandon r => some (queuedOf 10 r)
  | .brewRelease r => some (queuedOf 11 r)
  | .brewRead r => some (queuedOf 12 r)
  | .vesselClear r => some (queuedOf 13 r)
  | .vesselStart r => some (queuedOf 14 r)
  | .groupStart r => some (queuedOf 15 r)
  | .vesselHalt r => some (queuedOf 16 r)
  | .continueStep r => some (queuedOf 17 r)
  | .authority r => some (queuedOf 18 r)
  | .lock r => some (queuedOf 19 r)
  | .release r => some (queuedOf 20 r)
  | .discard r => some (queuedOf 21 r)
  | .castEnd r => some (queuedOf 22 r)
  | .castRead r => some (queuedOf 23 r)
  | .castSettle r => some (queuedOf 24 r)
  | .periodClose r => some (queuedOf 25 r)
  | .dutyRead r => some (queuedOf 26 r)
  | .journalRead r => some (queuedOf 27 r)
  | .journalRelease r => some (queuedOf 28 r)
  | .journalRetry r => some (queuedOf 29 r)
  | .characterReceived _ => none
  | .resetInputReleased _ => none
  | .unknownRequestCode source tag payload => some { source := source, tag := tag, payload := payload }

/-- The frame of a well-formed request command comes from a station of the ring, fits a payload of 120 bytes (1.3), and
is served by that command again (R170). -/
def RequestFrame.Statement (i : Instr) : Prop :=
  WellFormed i → ∀ q, carriedIn i = some q →
    (1 ≤ q.source.toNat ∧ q.source.toNat ≤ 254) ∧ q.payload.length ≤ 120 ∧ ∃ address, requestCommand address q = i

/-- A test that leaves no defect holds. -/
theorem require_eq_nil {b : Bool} {d : Defect} (h : require b d = []) : b = true := by
  unfold require at h
  by_cases hb : b = true
  · exact hb
  · rw [if_neg hb] at h; cases h

/-- What the checks of a request say. -/
theorem requestDefects_eq_nil {r : Request} (h : requestDefects r = []) :
    (1 ≤ r.source.toNat ∧ r.source.toNat ≤ 254) ∧ r.params.length ≤ 119 := by
  obtain ⟨h1, h2⟩ := List.append_eq_nil_iff.1 h
  exact ⟨of_decide_eq_true (require_eq_nil h1), of_decide_eq_true (require_eq_nil h2)⟩

/-- The request frame of a code, when the code's command serves it. -/
theorem carried_law {code : Nat} {r : Request} {i : Instr} (h : requestDefects r = [])
    (hi : ∃ address, requestCommand address (queuedOf code r) = i) (q : Queued) (hq : some (queuedOf code r) = some q) :
    (1 ≤ q.source.toNat ∧ q.source.toNat ≤ 254) ∧ q.payload.length ≤ 120 ∧ ∃ address, requestCommand address q = i := by
  obtain ⟨h1, h2⟩ := requestDefects_eq_nil h
  cases hq
  exact ⟨h1, Nat.succ_le_succ h2, hi⟩

/-- A command that serves no request frame. -/
theorem no_frame {P : Queued → Prop} (q : Queued) (h : none = some q) : P q := by cases h

theorem RequestFrame.fullReset (resetInput : Bool) (pins : Byte) : RequestFrame.Statement (.fullReset resetInput pins) :=
  fun _ => no_frame

theorem RequestFrame.frameComplete (bytes : List Byte) : RequestFrame.Statement (.frameComplete bytes) :=
  fun _ => no_frame

theorem RequestFrame.linkTimerExpiry : RequestFrame.Statement .linkTimerExpiry :=
  fun _ => no_frame

theorem RequestFrame.downstreamFrameSent : RequestFrame.Statement .downstreamFrameSent :=
  fun _ => no_frame

theorem RequestFrame.staleExpiry (row : Nat) : RequestFrame.Statement (.staleExpiry row) :=
  fun _ => no_frame

theorem RequestFrame.holdSlotExpiry (slot : Nat) : RequestFrame.Statement (.holdSlotExpiry slot) :=
  fun _ => no_frame

theorem RequestFrame.refreshTimerExpiry (vessel : Vessel) : RequestFrame.Statement (.refreshTimerExpiry vessel) :=
  fun _ => no_frame

theorem RequestFrame.holdTimerExpiry (vessel : Vessel) : RequestFrame.Statement (.holdTimerExpiry vessel) :=
  fun _ => no_frame

theorem RequestFrame.transferUnblocked (source : Vessel) : RequestFrame.Statement (.transferUnblocked source) :=
  fun _ => no_frame

theorem RequestFrame.confirmTimerExpiry : RequestFrame.Statement .confirmTimerExpiry :=
  fun _ => no_frame

theorem RequestFrame.castOpenRetry : RequestFrame.Statement .castOpenRetry :=
  fun _ => no_frame

theorem RequestFrame.strokeTimerExpiry : RequestFrame.Statement .strokeTimerExpiry :=
  fun _ => no_frame

theorem RequestFrame.settleTimerExpiry : RequestFrame.Statement .settleTimerExpiry :=
  fun _ => no_frame

theorem RequestFrame.castCloseReoffer : RequestFrame.Statement .castCloseReoffer :=
  fun _ => no_frame

theorem RequestFrame.firstActivation : RequestFrame.Statement .firstActivation :=
  fun _ => no_frame

theorem RequestFrame.powerFailWarning : RequestFrame.Statement .powerFailWarning :=
  fun _ => no_frame

theorem RequestFrame.powerWarningWithdrawn : RequestFrame.Statement .powerWarningWithdrawn :=
  fun _ => no_frame

theorem RequestFrame.journalProtectAsserted : RequestFrame.Statement .journalProtectAsserted :=
  fun _ => no_frame

theorem RequestFrame.journalProtectWithdrawn : RequestFrame.Statement .journalProtectWithdrawn :=
  fun _ => no_frame

theorem RequestFrame.journalWriteBegin : RequestFrame.Statement .journalWriteBegin :=
  fun _ => no_frame

theorem RequestFrame.journalEraseDone : RequestFrame.Statement .journalEraseDone :=
  fun _ => no_frame

theorem RequestFrame.journalProgramDone : RequestFrame.Statement .journalProgramDone :=
  fun _ => no_frame

theorem RequestFrame.journalReadbackDone (answer : StoreAnswer) : RequestFrame.Statement (.journalReadbackDone answer) :=
  fun _ => no_frame

theorem RequestFrame.journalReadBlockDone (answer : StoreAnswer) : RequestFrame.Statement (.journalReadBlockDone answer) :=
  fun _ => no_frame

theorem RequestFrame.mountBlockReadDone (answer : StoreAnswer) : RequestFrame.Statement (.mountBlockReadDone answer) :=
  fun _ => no_frame

theorem RequestFrame.reportTimerExpiry : RequestFrame.Statement .reportTimerExpiry :=
  fun _ => no_frame

theorem RequestFrame.statusRead (request : Request) : RequestFrame.Statement (.statusRead request) :=
  fun h => carried_law h ⟨0, rfl⟩

theorem RequestFrame.clearConditions (request : Request) : RequestFrame.Statement (.clearConditions request) :=
  fun h => carried_law h ⟨0, rfl⟩

theorem RequestFrame.tableWindow (request : Request) : RequestFrame.Statement (.tableWindow request) :=
  fun h => carried_law h ⟨0, rfl⟩

theorem RequestFrame.tableWrite (request : Request) : RequestFrame.Statement (.tableWrite request) :=
  fun h => carried_law h ⟨0, rfl⟩

theorem RequestFrame.tableRead (request : Request) : RequestFrame.Statement (.tableRead request) :=
  fun h => carried_law h ⟨0, rfl⟩

theorem RequestFrame.partConfig (request : Request) : RequestFrame.Statement (.partConfig request) :=
  fun h => carried_law h ⟨0, rfl⟩

theorem RequestFrame.resetFull (request : Request) (pins : Byte) : RequestFrame.Statement (.resetFull request pins) :=
  fun h => carried_law (List.append_eq_nil_iff.1 h).1 ⟨pins, if_neg fun e =>
    absurd (require_eq_nil (List.append_eq_nil_iff.1 h).2) (by simp [vesselsLevel, show request.params = [1] from e])⟩

theorem RequestFrame.resetVessels (request : Request) : RequestFrame.Statement (.resetVessels request) :=
  fun h => carried_law (List.append_eq_nil_iff.1 h).1 ⟨0, if_pos (show request.params = [1] from
    by simpa [vesselsLevel] using require_eq_nil (List.append_eq_nil_iff.1 h).2)⟩

theorem RequestFrame.brewOpen (request : Request) : RequestFrame.Statement (.brewOpen request) :=
  fun h => carried_law h ⟨0, rfl⟩

theorem RequestFrame.brewAssign (request : Request) : RequestFrame.Statement (.brewAssign request) :=
  fun h => carried_law h ⟨0, rfl⟩

theorem RequestFrame.brewAbandon (request : Request) : RequestFrame.Statement (.brewAbandon request) :=
  fun h => carried_law h ⟨0, rfl⟩

theorem RequestFrame.brewRelease (request : Request) : RequestFrame.Statement (.brewRelease request) :=
  fun h => carried_law h ⟨0, rfl⟩

theorem RequestFrame.brewRead (request : Request) : RequestFrame.Statement (.brewRead request) :=
  fun h => carried_law h ⟨0, rfl⟩

theorem RequestFrame.vesselClear (request : Request) : RequestFrame.Statement (.vesselClear request) :=
  fun h => carried_law h ⟨0, rfl⟩

theorem RequestFrame.vesselStart (request : Request) : RequestFrame.Statement (.vesselStart request) :=
  fun h => carried_law h ⟨0, rfl⟩

theorem RequestFrame.groupStart (request : Request) : RequestFrame.Statement (.groupStart request) :=
  fun h => carried_law h ⟨0, rfl⟩

theorem RequestFrame.vesselHalt (request : Request) : RequestFrame.Statement (.vesselHalt request) :=
  fun h => carried_law h ⟨0, rfl⟩

theorem RequestFrame.continueStep (request : Request) : RequestFrame.Statement (.continueStep request) :=
  fun h => carried_law h ⟨0, rfl⟩

theorem RequestFrame.authority (request : Request) : RequestFrame.Statement (.authority request) :=
  fun h => carried_law h ⟨0, rfl⟩

theorem RequestFrame.lock (request : Request) : RequestFrame.Statement (.lock request) :=
  fun h => carried_law h ⟨0, rfl⟩

theorem RequestFrame.release (request : Request) : RequestFrame.Statement (.release request) :=
  fun h => carried_law h ⟨0, rfl⟩

theorem RequestFrame.discard (request : Request) : RequestFrame.Statement (.discard request) :=
  fun h => carried_law h ⟨0, rfl⟩

theorem RequestFrame.castEnd (request : Request) : RequestFrame.Statement (.castEnd request) :=
  fun h => carried_law h ⟨0, rfl⟩

theorem RequestFrame.castRead (request : Request) : RequestFrame.Statement (.castRead request) :=
  fun h => carried_law h ⟨0, rfl⟩

theorem RequestFrame.castSettle (request : Request) : RequestFrame.Statement (.castSettle request) :=
  fun h => carried_law h ⟨0, rfl⟩

theorem RequestFrame.periodClose (request : Request) : RequestFrame.Statement (.periodClose request) :=
  fun h => carried_law h ⟨0, rfl⟩

theorem RequestFrame.dutyRead (request : Request) : RequestFrame.Statement (.dutyRead request) :=
  fun h => carried_law h ⟨0, rfl⟩

theorem RequestFrame.journalRead (request : Request) : RequestFrame.Statement (.journalRead request) :=
  fun h => carried_law h ⟨0, rfl⟩

theorem RequestFrame.journalRelease (request : Request) : RequestFrame.Statement (.journalRelease request) :=
  fun h => carried_law h ⟨0, rfl⟩

theorem RequestFrame.journalRetry (request : Request) : RequestFrame.Statement (.journalRetry request) :=
  fun h => carried_law h ⟨0, rfl⟩

theorem RequestFrame.characterReceived (character : Character) : RequestFrame.Statement (.characterReceived character) :=
  fun _ => no_frame

theorem RequestFrame.resetInputReleased (pins : Byte) : RequestFrame.Statement (.resetInputReleased pins) :=
  fun _ => no_frame

theorem RequestFrame.unknownRequestCode (source tag : Byte) (payload : List Byte) : RequestFrame.Statement (.unknownRequestCode source tag payload) := by
  intro h q hq
  cases hq
  obtain ⟨h12, h3⟩ := List.append_eq_nil_iff.1 h
  obtain ⟨h1, h2⟩ := List.append_eq_nil_iff.1 h12
  refine ⟨of_decide_eq_true (require_eq_nil h1), of_decide_eq_true (require_eq_nil h2), 0, ?_⟩
  have h4 := require_eq_nil h3
  cases payload with
  | nil => rfl
  | cons c rest =>
    have h5 : ¬(1 ≤ c.toNat ∧ c.toNat ≤ 29) := by
      intro h6
      simp [namesRequest, h6] at h4
    unfold requestCommand
    dsimp only [List.headD_cons]
    split <;> first | (exfalso; omega) | rfl

end Sys2Proof.Laws
end

