-- ==== Sys2Proof/Laws/Store.lean ====
section
/-! SUPPORT. The laws of the journal store: a read after a write, a write leaves every other block alone, and every
operation keeps the canonical form. -/

namespace Sys2Proof.Machine

variable {s t : State}

/-! ### The canonical form -/

theorem erasedBlock_length : erasedBlock.length = 512 := List.length_replicate

/-- Every listed block lies past a number. -/
def storeAbove (n : Nat) (st : Store) : Prop := ∀ p ∈ st, n < p.1

theorem storeWf_tail {a : Nat × List Byte} {st : Store} (h : storeWf (a :: st) = true) : storeWf st = true := by
  cases st with
  | nil => rfl
  | cons b st =>
    obtain ⟨n, x⟩ := a
    obtain ⟨m, y⟩ := b
    simp [storeWf] at h
    exact h.2

theorem storeWf_head {a : Nat × List Byte} {st : Store} (h : storeWf (a :: st) = true) :
    a.2.length = 512 ∧ a.2 ≠ erasedBlock := by
  obtain ⟨n, x⟩ := a
  cases st with
  | nil => simpa [storeWf] using h
  | cons b st =>
    obtain ⟨m, y⟩ := b
    simp [storeWf] at h
    exact ⟨h.1.1.1, h.1.1.2⟩

theorem storeWf_above {a : Nat × List Byte} {st : Store} (h : storeWf (a :: st) = true) : storeAbove a.1 st := by
  induction st generalizing a with
  | nil => intro p hp; cases hp
  | cons b st ih =>
    have ht := storeWf_tail h
    obtain ⟨n, x⟩ := a
    obtain ⟨m, y⟩ := b
    simp [storeWf] at h
    intro p hp
    cases hp with
    | head => exact h.1.2
    | tail _ hp => exact lt_trans h.1.2 (ih ht p hp)

theorem storeWf_cons {a : Nat × List Byte} {st : Store} (hl : a.2.length = 512) (he : a.2 ≠ erasedBlock)
    (ha : storeAbove a.1 st) (h : storeWf st = true) : storeWf (a :: st) = true := by
  obtain ⟨n, x⟩ := a
  cases st with
  | nil => simp [storeWf]; exact ⟨hl, he⟩
  | cons b st =>
    obtain ⟨m, y⟩ := b
    simp only [storeWf, Bool.and_eq_true, beq_iff_eq, bne_iff_ne, decide_eq_true_eq]
    exact ⟨⟨⟨hl, he⟩, ha (m, y) (by simp)⟩, h⟩

theorem storeWrite_above {n m : Nat} (b : List Byte) {st : Store} (h : storeAbove n st) (hm : n < m) :
    storeAbove n (storeWrite m b st) := by
  induction st with
  | nil =>
    unfold storeWrite
    split
    · exact h
    · intro p hp; simp at hp; subst hp; exact hm
  | cons a st ih =>
    obtain ⟨k, x⟩ := a
    have hk : n < k := h (k, x) (by simp)
    have ht : storeAbove n st := fun p hp => h p (by simp [hp])
    unfold storeWrite
    repeat' split
    · exact h
    · intro p hp; cases hp with
      | head => exact hm
      | tail _ hp => exact h p hp
    · exact ht
    · intro p hp; cases hp with
      | head => exact hm
      | tail _ hp => exact ht p hp
    · intro p hp; cases hp with
      | head => exact hk
      | tail _ hp => exact ih ht p hp

/-- A write of a block keeps the canonical form (10.1). -/
theorem storeWrite_wf (n : Nat) (b : List Byte) {st : Store} (hb : b.length = 512) (h : storeWf st = true) :
    storeWf (storeWrite n b st) = true := by
  induction st with
  | nil =>
    unfold storeWrite
    split
    · rfl
    · rename_i he
      exact storeWf_cons (a := (n, b)) hb he (fun p hp => by cases hp) rfl
  | cons a st ih =>
    have ht := storeWf_tail h
    have hh := storeWf_head h
    have ha := storeWf_above h
    obtain ⟨k, x⟩ := a
    unfold storeWrite
    split
    · rename_i hlt
      split
      · exact h
      · rename_i he
        refine storeWf_cons (a := (n, b)) hb he ?_ h
        intro p hp
        cases hp with
        | head => exact hlt
        | tail _ hp => exact lt_trans hlt (ha p hp)
    · rename_i hlt
      split
      · rename_i heq
        split
        · exact ht
        · rename_i he
          refine storeWf_cons (a := (n, b)) hb he ?_ ht
          intro p hp
          have := ha p hp
          simp only at this ⊢
          omega
      · rename_i heq
        refine storeWf_cons (a := (k, x)) hh.1 hh.2 ?_ (ih ht)
        exact storeWrite_above b ha (by simp only; omega)

/-! ### Reads -/

theorem storeRead_above {n : Nat} {st : Store} (h : storeAbove n st) : storeRead st n = erasedBlock := by
  induction st with
  | nil => rfl
  | cons a st ih =>
    obtain ⟨k, x⟩ := a
    have hk : n < k := h (k, x) (by simp)
    unfold storeRead
    rw [if_neg (by omega)]
    exact ih fun p hp => h p (by simp [hp])

/-- A block reads as what was last written to it. -/
theorem storeRead_write_same (n : Nat) (b : List Byte) {st : Store} (h : storeWf st = true) :
    storeRead (storeWrite n b st) n = b := by
  induction st with
  | nil =>
    unfold storeWrite
    split
    · rename_i he; rw [he]; rfl
    · simp [storeRead]
  | cons a st ih =>
    have ht := storeWf_tail h
    have ha := storeWf_above h
    obtain ⟨k, x⟩ := a
    unfold storeWrite
    split
    · rename_i hlt
      split
      · rename_i he
        rw [he]
        refine storeRead_above fun p hp => ?_
        cases hp with
        | head => exact hlt
        | tail _ hp => exact lt_trans hlt (ha p hp)
      · simp [storeRead]
    · split
      · rename_i heq
        split
        · rename_i he
          rw [he, heq]
          exact storeRead_above ha
        · simp [storeRead]
      · rename_i heq
        simp only [storeRead]
        rw [if_neg fun e => heq e.symm]
        exact ih ht

/-- A write leaves every other block as it reads. -/
theorem storeRead_write_other {n m : Nat} (b : List Byte) (st : Store) (hm : m ≠ n) :
    storeRead (storeWrite n b st) m = storeRead st m := by
  induction st with
  | nil =>
    unfold storeWrite
    split
    · rfl
    · simp [storeRead, hm.symm]
  | cons a st ih =>
    obtain ⟨k, x⟩ := a
    unfold storeWrite
    split
    · split
      · rfl
      · simp [storeRead, hm.symm]
    · split
      · rename_i heq
        split
        · simp only [storeRead]
          rw [if_neg (by omega)]
        · simp only [storeRead]
          rw [if_neg (by omega), if_neg (by omega)]
      · simp only [storeRead, ih]

/-- Every block of a store in canonical form reads as 512 bytes. -/
theorem storeRead_length (n : Nat) {st : Store} (h : storeWf st = true) : (storeRead st n).length = 512 := by
  induction st with
  | nil => exact erasedBlock_length
  | cons a st ih =>
    have ht := storeWf_tail h
    have hh := storeWf_head h
    obtain ⟨k, x⟩ := a
    unfold storeRead
    split
    · exact hh.1
    · exact ih ht

/-! ### What the part writes -/

theorem fitBlock_length (b : List Byte) : (fitBlock b).length = 512 := by
  rw [fitBlock, List.length_take, List.length_append, erasedBlock_length]
  omega

theorem readBlock_wf (n : Nat) (a : StoreAnswer) {st : Store} (h : storeWf st = true) :
    storeWf (readBlock n a st).2 = true := by
  cases a with
  | asHeld => exact h
  | bytes b => exact storeWrite_wf n _ (fitBlock_length b) h

@[simp] theorem digits_length (w n : Nat) : (digits w n).length = w := by
  induction w with
  | zero => rfl
  | succ w ih => simp [digits, ih]

@[simp] theorem num_length (w n : Nat) : (num w n).length = w := digits_length ..

theorem blockHead_length (q : Seq) (d : Draft) : (blockHead q d).length = 508 := by
  simp only [blockHead, List.length_append, num_length, List.length_take, List.length_replicate]
  omega

/-- A record fills its block: 512 bytes (10.1). -/
theorem blockBytes_length (q : Seq) (d : Draft) : (blockBytes q d).length = 512 := by
  simp [blockBytes, blockHead_length, wordBytes]

/-! ### A write cut short by a full reset (R163) -/

theorem cutBytes_length (n : Nat) (b : List Byte) : (cutBytes n b).length = 512 := by
  unfold cutBytes; simp only
  split
  · exact erasedBlock_length
  all_goals exact fitBlock_length _

/-- What a cut block holds reads bad or erased (R163). -/
theorem cutBytes_not_good (n : Nat) (b : List Byte) (r : Record) : classifyBlock n (cutBytes n b) ≠ .good r := by
  unfold cutBytes; simp only
  split
  · simp [classifyBlock]
  · rename_i h; simp [h]
  · rename_i h; simp [h]

theorem cutStore_wf (h : storeWf s.store = true) : storeWf (cutStore s) = true := by
  unfold cutStore; simp only
  split
  · exact storeWrite_wf _ _ (cutBytes_length _ _) h
  · exact h

/-- A full reset leaves every block as it reads but that of a write in progress (R163). -/
theorem storeRead_cutStore_other {n : Nat} (hn : n ≠ blockOf (writePosition s.journal)) :
    storeRead (cutStore s) n = storeRead s.store n := by
  unfold cutStore; simp only
  split
  · exact storeRead_write_other _ _ hn
  · rfl

/-- The block of a write in progress reads bad or erased after a full reset (R163). -/
theorem storeRead_cutStore_block (h : storeWf s.store = true) (hw : writeInProgress s.journal = true) (r : Record) :
    classifyBlock (blockOf (writePosition s.journal)) (storeRead (cutStore s) (blockOf (writePosition s.journal)))
      ≠ .good r := by
  unfold cutStore
  rw [if_pos hw]
  simp only
  rw [storeRead_write_same _ _ h]
  exact cutBytes_not_good _ _ r

/-! ### The commands of the store -/

theorem eraseDone_wf (h : storeWf s.store = true) : storeWf (eraseDone s).store = true := by
  unfold eraseDone
  split
  · exact storeWrite_wf _ _ erasedBlock_length h
  · exact h

theorem programDone_wf (h : storeWf s.store = true) : storeWf (programDone s).store = true := by
  unfold programDone
  split
  · exact storeWrite_wf _ _ (blockBytes_length _ _) h
  · exact h

theorem store_of_kept (h : t.kept = s.kept) : t.store = s.store := congrArg Prod.snd h

theorem readBlockDone_wf (a : StoreAnswer) (h : storeWf s.store = true) : storeWf (readBlockDone a s).store = true := by
  unfold readBlockDone
  split
  · rename_i job rest _ _
    have e := readBlock_wf (blockOf (job.seq + BitVec.ofNat 32 job.done)) a h
    simp only
    split
    · exact e
    · rw [store_of_kept (startRead_kept _), store_of_kept (sendDeferred_kept ..)]
      exact e
  · exact h

theorem readbackDone_wf (a : StoreAnswer) (h : storeWf s.store = true) : storeWf (readbackDone a s).store = true := by
  unfold readbackDone
  split
  · have e := readBlock_wf (blockOf (writePosition s.journal)) a h
    simp only
    split
    · rw [store_of_kept (startRead_kept _), store_of_kept (recordComplete_kept ..)]
      exact e
    · rw [store_of_kept (badPosition_kept _)]
      exact e
  · exact h

theorem mountBlockDone_wf (a : StoreAnswer) (h : storeWf s.store = true) :
    storeWf (mountBlockDone a s).store = true := by
  unfold mountBlockDone
  split
  · have e := readBlock_wf s.journal.mountBlock a h
    simp only
    split
    · rw [store_of_kept (mountComplete_kept _)]
      exact e
    · exact e
  · exact h

/-! ### What they leave alone -/

theorem eraseDone_fixed (s : State) : (eraseDone s).fixed = s.fixed := by
  unfold eraseDone; split <;> rfl

theorem programDone_fixed (s : State) : (programDone s).fixed = s.fixed := by
  unfold programDone; split <;> rfl

theorem readBlockDone_fixed (a : StoreAnswer) (s : State) : (readBlockDone a s).fixed = s.fixed := by
  unfold readBlockDone
  split
  · simp only
    split
    · rfl
    · rw [fixed_of_kept (startRead_kept _), fixed_of_kept (sendDeferred_kept ..)]
      rfl
  · rfl

theorem readbackDone_fixed (a : StoreAnswer) (s : State) : (readbackDone a s).fixed = s.fixed := by
  unfold readbackDone
  split
  · simp only
    split
    · rw [fixed_of_kept (startRead_kept _), fixed_of_kept (recordComplete_kept ..)]
      rfl
    · rw [fixed_of_kept (badPosition_kept _)]
      rfl
  · rfl

theorem mountBlockDone_fixed (a : StoreAnswer) (s : State) : (mountBlockDone a s).fixed = s.fixed := by
  unfold mountBlockDone
  split
  · simp only
    split
    · rw [fixed_of_kept (mountComplete_kept _)]
      rfl
    · rfl
  · rfl

end Sys2Proof.Machine
end

