-- ==== Sys2Proof/Laws/Requests.lean ====
section
/-! SUPPORT. The request laws: how a request that finds its turn is served, that its REPLY is sent, and that only
reports follow it. -/

namespace Sys2Proof.Machine

variable {s t u : State}

/-! ### What follows a frame -/

/-- The downstream port is busy in `s`, and `t` differs in its loop by frames at the tail and by congestion alone. -/
structure Follows (s t : State) : Prop where
  busy : s.loop.port ≠ .idle
  port : t.loop.port = s.loop.port
  queue : ∃ more, t.loop.queue = s.loop.queue ++ more
  full : 32 ≤ s.loop.queue.length → t.loop.queue = s.loop.queue
  congested : s.loop.congested = true → t.loop.congested = true

theorem Follows.refl (h : s.loop.port ≠ .idle) : Follows s s := ⟨h, rfl, ⟨[], by simp⟩, fun _ => rfl, id⟩

theorem Follows.trans {a b c : State} (h : Follows a b) (g : Follows b c) : Follows a c := by
  obtain ⟨m, hm⟩ := h.queue
  obtain ⟨n, hn⟩ := g.queue
  refine ⟨h.busy, g.port.trans h.port, ⟨m ++ n, by rw [hn, hm, List.append_assoc]⟩, fun x => ?_,
    fun x => g.congested (h.congested x)⟩
  have e := h.full x
  rw [g.full (by rw [e]; exact x), e]

theorem Follows.of_loop (h : s.loop.port ≠ .idle) (e : t.loop = s.loop) : Follows s t :=
  ⟨h, by rw [e], ⟨[], by rw [e]; simp⟩, fun _ => by rw [e], fun x => by rw [e]; exact x⟩

theorem startNext_busy (h : s.loop.port ≠ .idle) : startNext s = s := by
  unfold startNext
  split
  · rfl
  · rfl
  · rename_i e; exact absurd e h

/-- A frame that is no DRIVE, offered while the port is busy (R14, R16). -/
theorem offer_busy (f : Frame) (o : Owner) (hk : f.kind ≠ kindDrive) (h : s.loop.port ≠ .idle) :
    offer f o s = if s.loop.queue.length < 32 then
        (.queued, withLoop (fun l =>
          { l with queue := l.queue ++ [{ frame := f.sealed, entry := s.loopTime, owner := o }] }) s)
      else (.refused, withLoop (fun l => { l with congested := true }) s) := by
  rw [offer_report f o s hk]
  split
  · unfold enterQueue
    simp only
    rw [if_neg (fun x => h x.1)]
    exact congrArg (Prod.mk _) (startNext_busy h)
  · rfl

/-- A frame that is no DRIVE, offered with the port free and nothing waiting, begins at once (R17). -/
theorem offer_idle (f : Frame) (o : Owner) (hk : f.kind ≠ kindDrive) (h : s.loop.port = .idle)
    (ha : s.loop.transit = [] ∧ s.loop.queue = []) :
    offer f o s = (.begun, beginInsertion { frame := f.sealed, entry := s.loopTime, owner := o } [] s) := by
  rw [offer_report f o s hk, if_pos (by rw [ha.2]; decide)]
  unfold enterQueue
  simp only
  rw [if_pos ⟨h, ha.1, ha.2⟩]

theorem offer_follows (f : Frame) (o : Owner) (hk : f.kind ≠ kindDrive) (h : s.loop.port ≠ .idle) :
    Follows s (offer f o s).2 := by
  rw [offer_busy f o hk h]
  split
  · exact ⟨h, rfl, ⟨_, rfl⟩, fun x => absurd x (by omega), id⟩
  · exact ⟨h, rfl, ⟨[], by simp⟩, fun _ => rfl, fun _ => rfl⟩

theorem attention_follows (h : s.loop.port ≠ .idle) : Follows s (attention s) := by
  unfold attention
  split
  · exact .refl h
  · have e := offer_follows (reportFrame s 1 (condMask s.agent.conditions)) .agent
      (show kindReport ≠ kindDrive by decide) h
    simp only
    split
    · exact e.trans (.of_loop (by rw [e.port]; exact h) rfl)
    · exact e

theorem joinCond_follows (c : Cond) (h : s.loop.port ≠ .idle) : Follows s (joinCond c s) := by
  unfold joinCond
  generalize hu : withAgent (fun a => { a with conditions := insertCond c a.conditions }) s = u
  have e : u.loop = s.loop := by rw [← hu, withAgent_loop]
  simp only
  split
  · exact .of_loop h e
  · exact (Follows.of_loop h e).trans (attention_follows (by rw [e]; exact h))

theorem joinIfCaused_follows (c : Cond) (h : s.loop.port ≠ .idle) : Follows s (joinIfCaused s c) := by
  unfold joinIfCaused
  split
  · exact joinCond_follows c h
  · exact .refl h

theorem joinAll_follows (l : List Cond) (h : s.loop.port ≠ .idle) : Follows s (l.foldl joinIfCaused s) := by
  induction l generalizing s with
  | nil => exact .refl h
  | cons c l ih =>
    have e := joinIfCaused_follows c h
    exact e.trans (ih (by rw [e.port]; exact h))

theorem syncConditions_follows (h : s.loop.port ≠ .idle) : Follows s (syncConditions s) := by
  unfold syncConditions
  split
  · have e0 : Follows s (leaveConds s) := .of_loop h rfl
    have e := e0.trans (joinAll_follows allConds (s := leaveConds s) h)
    exact e.trans (joinIfCaused_follows _ (by rw [e.port]; exact h))
  · exact .refl h

theorem refreshAll_loop (l : List Vessel) (s : State) : (l.foldl refreshSync s).loop = s.loop := by
  induction l generalizing s with
  | nil => rfl
  | cons v l ih => rw [List.foldl_cons, ih]; rfl

/-- With no notice under way, only reports follow at the end of a command. -/
theorem settle_follows (ht : s.tells = []) (h : s.loop.port ≠ .idle) : Follows s (settle s) := by
  have e : Follows s (vessels.foldl refreshSync (drainTells 64 s)) := by
    rw [drainTells_nil 64 ht]; exact .of_loop h (refreshAll_loop _ _)
  exact (e.trans (syncConditions_follows (by rw [e.port]; exact h))).trans
    (.of_loop (by rw [(syncConditions_follows (by rw [e.port]; exact h)).port, e.port]; exact h) rfl)

/-! ### A REPLY is sent -/

/-- The REPLY offered at the end of a request is sent, and the end of the command adds only reports (R170). -/
theorem offered_sent (f : Frame) (hk : f.kind ≠ kindDrive) (ht : s.tells = [])
    (ha : s.loop.port = .idle → s.loop.transit = [] ∧ s.loop.queue = []) :
    Sent f s (settle (offer f .agent s).2) ∧ (settle (offer f .agent s).2).rest = s.rest := by
  have htt : (offer f .agent s).2.tells = [] := by
    by_cases h : s.loop.port = .idle
    · rw [offer_idle f _ hk h (ha h)]; exact ht
    · rw [offer_busy f _ hk h]; split <;> exact ht
  refine ⟨?_, by rw [settle_rest htt, offer_rest_of_report _ _ _ hk]⟩
  by_cases h : s.loop.port = .idle
  · have e := offer_idle f .agent hk h (ha h)
    have hb : (offer f .agent s).2.loop.port = .sendingInsertion f.sealed := by rw [e]; rfl
    have g := settle_follows htt (by rw [hb]; simp)
    refine ⟨fun _ => by rw [g.port, hb], fun x => absurd h x, fun x => ?_⟩
    rw [(ha h).2] at x
    exact absurd x (by decide)
  · have e := offer_busy f .agent hk h
    have hb : (offer f .agent s).2.loop.port = s.loop.port := by rw [e]; split <;> rfl
    have g := settle_follows htt (by rw [hb]; exact h)
    refine ⟨fun x => absurd x h, fun _ hl => ?_, fun hl => ?_⟩
    · obtain ⟨m, hm⟩ := g.queue
      refine ⟨m, ?_⟩
      rw [hm, e, if_pos hl]
      simp
    · rw [if_neg (by omega)] at e
      have hq : (offer f .agent s).2.loop.queue = s.loop.queue := by rw [e]; rfl
      exact ⟨by rw [g.full (by rw [hq]; exact hl), hq], g.congested (by rw [e]; rfl)⟩

/-! ### A request finds its turn -/

theorem onRequest_takes {q : Queued} (f : State → State) (h : Takes q s) : onRequest q f s = settle (f (taken s)) := by
  unfold onRequest taken
  rw [if_pos h.active]
  cases e : s.agent.requests with
  | nil =>
    simp only [List.tail_nil]
    rw [← e]
  | cons a l =>
    have := h.head a (by rw [e]; rfl)
    simp only [this, if_true, List.tail_cons]
    rfl

/-- What a request that finds its turn answers (R170). -/
theorem answers_of {i : Instr} {code : Nat} {rq : Request} {r : Result} {data : List Byte} (f : State → State)
    (hi : exec i s = .next (onRequest (queuedOf code rq) f s)) (h : Takes (queuedOf code rq) s)
    (hf : f (taken s) = answer code rq r data u) (ht : u.tells = [])
    (ha : u.loop.port = .idle → u.loop.transit = [] ∧ u.loop.queue = []) :
    Answers i code rq r data s u := by
  refine ⟨_, hi, ?_⟩
  rw [onRequest_takes f h, hf]
  have e := offered_sent (replyFrame u rq.source rq.tag (BitVec.ofNat 8 code) r data)
    (show kindReply ≠ kindDrive by decide) ht ha
  exact ⟨e.2, e.1⟩

/-- What a request that answers with no REPLY yet leaves. -/
theorem leaves_of {i : Instr} {code : Nat} {rq : Request} (f : State → State)
    (hi : exec i s = .next (onRequest (queuedOf code rq) f s)) (h : Takes (queuedOf code rq) s)
    (hf : f (taken s) = u) (ht : u.tells = []) : Leaves i s u := by
  refine ⟨_, hi, ?_⟩
  rw [onRequest_takes f h, hf]
  exact settle_rest ht

/-- What a command taken in ACTIVE mode leaves. -/
theorem leaves_active {i : Instr} (f : State → State) (hi : exec i s = .next (whenActive f s)) (h : s.mode = .active)
    (hf : f s = u) (ht : u.tells = []) : Leaves i s u := by
  refine ⟨_, hi, ?_⟩
  unfold whenActive
  rw [if_pos h, hf]
  exact settle_rest ht

end Sys2Proof.Machine
end

