-- ==== Sys2Proof/Tests/Slice0.lean ====
section
/-! SUPPORT. Tests: the checks of well-formedness, the spec's worked examples, one step of some commands, and for every
statement with hypotheses a state and operands that meet them, clause by clause. -/

namespace Sys2Proof.Tests

open Sys2Proof.Machine

set_option Elab.async false

/-! ### Well-formedness: each check refuses an ill-formed command -/

/-- The request of station 9 with tag 3 that asks `r`. -/
def ask (r : Req) : Request := { source := 9, tag := 3, params := r.params }

theorem test_refuses_noBytes : defects (.frameComplete []) = [.noBytes] := by decide +kernel
theorem test_refuses_frameTooLong : defects (.frameComplete (List.replicate 129 0)) = [.frameTooLong] := by decide +kernel
theorem test_refuses_noSuchPoint : defects (.staleExpiry 128) = [.noSuchPoint] := by decide +kernel
theorem test_refuses_noSuchSlot : defects (.holdSlotExpiry 4) = [.noSuchSlot] := by decide +kernel
theorem test_refuses_noHoldTimer : defects (.holdTimerExpiry .kettle) = [.noHoldTimer] := by decide +kernel
theorem test_refuses_noTransfer : defects (.transferUnblocked .whirlpool) = [.noTransfer] := by decide +kernel
theorem test_refuses_notABlock : defects (.mountBlockReadDone (.bytes [0])) = [.notABlock] := by decide +kernel
theorem test_refuses_badStation : defects (.dutyRead { source := 255, tag := 0, params := [] }) = [.badStation] := by
  decide +kernel
theorem test_refuses_payloadTooLong :
    defects (.tableWrite { source := 9, tag := 0, params := List.replicate 120 0 }) = [.payloadTooLong] := by decide +kernel
theorem test_refuses_otherLevel : defects (.resetFull (ask (.reset true)) 1) = [.otherLevel] := by decide +kernel
theorem test_refuses_knownRequest : defects (.unknownRequestCode 9 0 [29]) = [.knownRequest] := by decide +kernel
theorem test_accepts_unknownRequest : defects (.unknownRequestCode 9 0 [30]) = [] := by decide +kernel
theorem test_no_word_spells_a_command : decodeTableWord 8 1 = none := rfl

/-! ### The spec's worked examples -/

/-- CRC-16 of 1.3's polynomial and start over the digits 1 to 9: the published check value of that CRC. -/
theorem test_crc : crc16 [0x31, 0x32, 0x33, 0x34, 0x35, 0x36, 0x37, 0x38, 0x39] = 0x29B1 := by decide +kernel

/-- A point row of a kind with a gain and an offset. -/
def scaled (kind : PointKind) (gain offset : Int) : PointRow :=
  { station := 1, channel := 0, kind := kind, binding := .unbound, gain := gain, offset := offset, staleLimit := 1000
    owned := false }

/-- A GOOD item of a format. -/
def item (format : SampleFormat) (raw : Int) : SampleItem := { channel := 0, format := format, quality := .good, raw := raw }

/-- 2.7, the five rows. -/
theorem test_scaling :
    itemValue (scaled .temperature 655360 0) (item .short 652) = some (6520, false)
    ∧ itemValue (scaled .temperature 40000 100) (item .short (-3)) = some (98, false)
    ∧ itemValue (scaled .gravity 640 0) (item .long 1234567) = some (12056, false)
    ∧ itemValue (scaled .level 1310720 0) (item .short 30000) = some (500000, true)
    ∧ itemValue (scaled .temperature 655360 0) (item .short (-32768)) = some (-5000, true) := by decide +kernel

/-- 5.8 and 5.9. -/
theorem test_heating_loop :
    piDemand 400 120 6500 6380 250000 1000 = (252400, 732) ∧ piDemand 400 120 7200 6900 200000 1000 = (200000, 1000) := by
  decide +kernel

/-- 5.10, the six samples. -/
theorem test_ramp :
    rampMove none 0 100 0 6510 6500 = (6500, 0) ∧ rampMove (some 6500) 0 100 1000 6510 0 = (6501, 40000)
    ∧ rampMove (some 6501) 40000 100 400 6510 0 = (6502, 20000)
    ∧ rampMove (some 6502) 20000 100 1000 6510 0 = (6504, 0) ∧ rampMove (some 6504) 0 100 3000 6510 0 = (6509, 0)
    ∧ (rampMove (some 6509) 0 100 1200 6510 0).1 = 6510 := by decide +kernel

/-- 6.10, the evaporation. -/
theorem test_evaporation : evaporationOf 96000 89280 = (6720, 70) := by decide +kernel

/-- The Correction Table of 7.8. -/
def corrections : Tables := { Tables.zero with correction := List.replicate 12 [0, 1] ++ [[1001220, 1], [1001090, 1]] }

/-- 7.8: the factor, and the pulses across the wrap of the count. -/
theorem test_flow_factor : correctionFactor corrections 1250 = 1001155 ∧ pulseStep 150 4294967000 = 446 := by
  decide +kernel

/-- 8.8. -/
theorem test_strokes :
    targetStrokes { rate := 750, concentration := 1500, viability := 950, stroke := 50000, lagLimit := 6 } 750
      58233656250000 = 612 := by decide +kernel

/-- The tariff of 9.3. -/
def tariff : TariffImage :=
  { allowance := 15000, bandCount := 3, tierCount := 3, bands := [(10000, 300), (14000, 340), (40000, 390)]
    tiers := [(2000000, 500000), (6000000, 250000), (0, 0)] }

/-- 9.3: the charge across a tier boundary, and the same charge from a base past the tier. -/
theorem test_charge :
    meanGravity 4812500000 58233656250000 = 12101
    ∧ (let d := computeDuty tariff 5120 .metered 4812500 12101 1980000
       d.dl = 58236 ∧ d.a = 873 ∧ d.cdl = 57363 ∧ d.band = 2 ∧ d.rate = 340
         ∧ d.portions.map (fun p => (p.tier, p.q, p.net)) = [(1, 20000, 3400000), (2, 37363, 9527565)] ∧ d.d = 12928)
    ∧ (computeDuty tariff 5120 .metered 4812500 12101 2000000).d = 14628 := by decide +kernel

/-- 9.8: the settlement. -/
theorem test_settlement :
    (let d := computeDuty tariff 5120 .declared 3000000 11500 2037363
     d.dl = 34500 ∧ d.a = 517 ∧ d.cdl = 33983 ∧ d.n = 8665665 ∧ d.d = 8666) := by decide +kernel

/-! ### A small plant

One brewhouse in READY order: four vessels with a recipe, a casting line and their points. -/

def cellsOf (l : List Int) : List Cell := l.map (BitVec.ofInt 32)

/-- A table whose first rows are given. -/
def rowsOf (rows fields : Nat) (l : List (List Int)) : List (List Cell) :=
  l.map cellsOf ++ List.replicate (rows - l.length) (List.replicate fields 0)

/-- A valid Point Table row: station, channel, kind, binding, OWNED. -/
def pointCells (station channel kind binding owned : Int) : List Int :=
  [station, channel, kind, binding, 65536, 0, 10000, owned, 1]

/-- Rows 0 to 3 are the vessels' temperatures, 4 to 7 their levels, 8 to 11 their panels, 12 and 13 the heat of the mash
and the kettle, 14 to 16 pumps, 17 the additions, 18 to 22 the line's flow, temperature, gravity, pump and dosing. -/
def plant : Tables :=
  { Tables.zero with
    point := rowsOf 128 9
      ([0, 1, 2, 3].map (fun v => pointCells (20 + v) 0 0 v 0) ++ [0, 1, 2, 3].map (fun v => pointCells (20 + v) 1 2 v 0)
        ++ [0, 1, 2, 3].map (fun v => pointCells (30 + v) 0 9 v 0)
        ++ [pointCells 20 2 4 0 1, pointCells 22 2 4 2 1, pointCells 20 3 5 0 1, pointCells 21 3 5 1 1,
          pointCells 22 3 5 2 1, pointCells 22 4 8 2 1, pointCells 40 0 3 4 0, pointCells 40 1 0 4 0,
          pointCells 40 2 1 4 0, pointCells 40 3 5 4 1, pointCells 41 0 7 4 1])
    vessel := rowsOf 4 11
      [[0, 12, 4, 50, 8, 100, 10, 5, 1000, 0, 1], [1, 255, 5, 50, 9, 100, 10, 5, 1000, 0, 1],
        [2, 13, 6, 50, 10, 100, 10, 5, 1000, 1, 1], [3, 255, 7, 50, 11, 100, 10, 5, 1000, 1, 1]]
    recipe := rowsOf 16 14 [[0, 3, 3, 2, 5, 2, 7, 1, 9800, 600, 0, 2, 100, 1]]
    step := rowsOf 128 10
      [[0, 6500, 1, 50, 0, 255, 0, 255, 0, 1], [2, 0, 1, 50, 0, 255, 0, 255, 0, 1],
        [4, 0, 1, 50, 0, 14, 800, 255, 1, 1], [0, 0, 1, 50, 2, 255, 0, 255, 0, 1],
        [4, 0, 1, 50, 0, 15, 800, 255, 1, 1], [5, 0, 1, 50, 0, 255, 700, 255, 0, 1],
        [4, 0, 1, 50, 0, 16, 800, 255, 1, 1], [6, 0, 1, 50, 0, 255, 0, 255, 1, 1]]
    addition := rowsOf 64 5 [[0, 17, 50, 0, 1], [1, 17, 60, 1, 1]]
    line := rowsOf 1 11 [[18, 19, 20, 21, 22, 10000, 20000, 2000, 1000, 3, 1]]
    correction := List.replicate 32 (cellsOf [1000000, 1])
    strain := rowsOf 12 6 [[750, 1500, 950, 50000, 6, 1]] }

/-- The part with the plant loaded, every point fresh, its journal READY and a tariff active. -/
def base : State :=
  { State.reset with
    tables := plant
    points := List.replicate 128
      { current := some ⟨6500, 0⟩, quality := .good, clamped := false, previous := none, staleTimer := some 0 }
    journal := { Journal.cleared with mount := .ready }
    duty := { Duty.cleared with tariff := .active, active := tariff, activeSeq := 5 }
    agent := { State.reset.agent with conditions := [] } }

/-- Brew 7 of recipe 0, in a state and in some vessels. -/
def brewIn (st : BrewState) (occupied : List Vessel) : Brew :=
  { number := 7, recipe := 0, fermenter := 3, strain := 1, override := 0, gravity := .pause, lag := .pause, state := st
    occupied := occupied, mash := some { steps := 0, rest := 0, deviation := 0 }, boil := none, castNo := none }

/-- Brew 7 in the Brew Table. -/
def withBrew (st : BrewState) (occupied : List Vessel) (s : State) : State :=
  { s with brews := [some (brewIn st occupied), none, none, none, none, none] }

/-- A vessel with brew 7 in it, an occupancy and a sequencer. -/
def holding (v : Vessel) (o : Occupancy) (q : Sequencer) (s : State) : State :=
  { s with
    vessels := s.vessels.set v { s.vessels.get v with occupant := some 7, occupancy := o }
    seqs := s.seqs.set v q }

/-- A sequencer with recipe 0's list in a state. -/
def loaded (st : SeqState) : Sequencer := { Sequencer.cleared with state := st, list := some 0 }

/-- A sequencer at a position, its step in effect. -/
def atStep (st : SeqState) (pos : Nat) : Sequencer := { loaded st with position := some pos, phase := .inEffect }

/-- Brew 7 in one vessel, with that vessel's sequencer. -/
def brewing (v : Vessel) (q : Sequencer) : State := holding v .resident q (withBrew (brewStateIn v) [v] base)

/-- Loop time moved on. -/
def later (ms : Nat) (s : State) : State := { s with loopTime := s.loopTime + BitVec.ofNat 32 ms }

/-- The downstream port busy with a transit frame. -/
def busyPort (s : State) : State :=
  { s with loop := { s.loop with
      port := .sendingTransit, transit := [{ kind := 0x10, dest := 2, source := 3, hop := 1, tag := 0, payload := [], check := 0 }] } }

/-- An open cast of brew 7 in a state, its pitch part with one stroke outstanding or none. -/
def castIn (st : CastState) (stroke : Bool) : Cast :=
  { newCast 1 (brewIn .casting [.whirlpool]) base with
    state := st, v20 := 5000000, gv := 60000000000, lastCount := some 100, settleTimer := some 0
    pitch := (newPitch plant (brewIn .casting [.whirlpool])).map fun p =>
      { p with target := 3, issued := 1, outstanding := stroke, strokeTimer := if stroke then some 0 else none } }

/-- The CAST step of brew 7 with a cast. -/
def casting (c : Option Cast) : State :=
  { holding .whirlpool .resident (atStep .running 0) (withBrew .casting [.whirlpool] base) with
    castMeter := { record := c, pumpUnsent := none, keptClose := none } }

/-- A frame to the part from station 20, sealed. -/
def frameOf (kind source dest : Byte) (payload : List Byte) : Frame :=
  Frame.sealed { kind := kind, dest := dest, source := source, hop := 0, tag := 0, payload := payload, check := 0 }

/-- What a test reads in the state after one command. -/
def after {α : Type} (i : Instr) (s : State) (f : State → α) : Option α :=
  match exec i s with
  | .next t => some (f t)
  | .fault _ => none
  | .refused _ => none

/-! ### One step of the commands

The expected values are those of the rule each name's command is specified in. -/

/-- A CAST_OPEN record at the head of the write queue. -/
def openDraft (placed : Bool) : Draft :=
  { body := .castOpen { cast := 1, fermenter := 3, opened := 0, tariffSeq := 5, strain := 1, rate := 750, gravity := .pause
                        lag := .pause }
    brew := 7, period := 1, skip := 0, placed := placed }

/-- The journal in a stage of a write of one record at position 0. -/
def writing (op : StoreOp) (d : Draft) (s : State) : State :=
  { s with journal := { s.journal with op := op, queue := [{ d with placed := true }], head := 1 } }

/-- A frame held for the mash's heat point in slot 0. -/
def held : Hold :=
  { frame := frameOf 2 9 20 [2, 1, 1, 0x90], point := 12, vessel := .mash, step := some 0, time := 0 }

/-- Slot 0 holds a frame. -/
def withHold (s : State) : State := { s with slots := [some held, none, none, none] }

/-- The kettle at its BOIL step with the CONFIRM entry pending. -/
def boilPending : State :=
  { brewing .kettle (atStep .running 0) with
    boil := { BoilUnit.cleared with begun := true, clock := 61000, cursor := 1, pending := some 1, confirmTimer := some 0 } }

/-- The result code of the REPLY that began at the free downstream port (R172: its second byte). -/
def result (t : State) : Option Byte :=
  match t.loop.port with
  | .sendingInsertion f => f.payload[1]?
  | .sendingTransit => none
  | .idle => none

theorem test_fullReset : after (.fullReset false 0) base (fun t => (t.mode, t.brews)) = some (.bypass, List.replicate 6 none) := by
  decide +kernel
theorem test_fullReset_held : after (.fullReset true 5) base (fun t => (t.mode, t.relayOpen)) = some (.inReset, false) := by
  decide +kernel
theorem test_frameComplete_sample :
    after (.frameComplete (frameOf 1 20 1 [1, 0, 1, 0, 0x1A, 0x90]).bytes) base (fun t => valueOf t 0) = some 6800 := by
  decide +kernel
theorem test_frameComplete_error : after (.frameComplete [1, 1, 20, 0, 0, 0, 0, 0]) base (fun t => t.loop.frameErrors) = some 1 := by
  decide +kernel
theorem test_linkTimerExpiry : after .linkTimerExpiry (later 250 base) (fun t => t.loop.linkDown) = some true := by decide +kernel
theorem test_linkTimerExpiry_early : after .linkTimerExpiry (later 249 base) (fun t => t.loop.linkDown) = some false := by
  decide +kernel
theorem test_downstreamFrameSent :
    after .downstreamFrameSent (busyPort base) (fun t => (t.loop.port, t.loop.transit)) = some (.idle, []) := by decide +kernel
theorem test_staleExpiry : after (.staleExpiry 0) (later 10000 base) (fun t => (entryOf t 0).quality) = some .stale := by
  decide +kernel
theorem test_holdSlotExpiry : after (.holdSlotExpiry 0) (later 30000 (withHold base)) (fun t => slotHold t 0) = some none := by
  decide +kernel
theorem test_refreshTimerExpiry :
    after (.refreshTimerExpiry .mash)
      (later 1000 (brewing .mash { atStep .running 0 with lastDemand := 732, refreshTimer := some 0 }))
      (fun t => (t.seqs.mash.refreshTimer, result t)) = some (some 1000, some 0) := by decide +kernel
/-- R94: a forced zero is not refreshed, and the demand computed after it is offered within the deadband too. -/
theorem test_forcedZero_refresh :
    after (.refreshTimerExpiry .mash)
      (later 1000 (brewing .mash { atStep .running 0 with zeroForced := true, refreshTimer := some 0 }))
      (fun t => (t.seqs.mash.refreshTimer, result t)) = some (some 1000, none) := by decide +kernel
theorem test_forcedZero_demand :
    [true, false].map (fun z =>
      let t := heatDemand .mash 1 (brewing .mash { atStep .running 0 with zeroForced := z })
      (t.seqs.mash.lastDemand, t.seqs.mash.zeroForced)) = [(1, false), (0, false)] := by decide +kernel
theorem test_holdTimerExpiry :
    after (.holdTimerExpiry .lauter) (later 2000 (brewing .lauter { atStep .running 0 with holdSince := some 0 }))
      (fun t => t.seqs.lauter.position) = some (some 1) := by decide +kernel
theorem test_transferUnblocked :
    after (.transferUnblocked .mash)
      (brewing .mash { atStep .blocked 2 with phase := .begun, blocked := some .destinationBusy })
      (fun t => (t.vessels.mash.occupancy, t.vessels.lauter.occupancy)) = some (.draining, .filling) := by decide +kernel
theorem test_confirmTimerExpiry :
    after .confirmTimerExpiry (later 120000 boilPending) (fun t => (t.boil.pending, t.boil.cursor)) = some (none, 2) := by
  decide +kernel
theorem test_castOpenRetry :
    after .castOpenRetry
      (holding .whirlpool .resident { atStep .blocked 0 with blocked := some (.castRefused .orphans) }
        (withBrew .whirlpool [.whirlpool] base))
      (fun t => (t.seqs.whirlpool.state, t.castMeter.record.map Cast.state)) = some (.running, some .opening) := by
  decide +kernel
theorem test_strokeTimerExpiry :
    after .strokeTimerExpiry (later 1000 (casting (some (castIn .metering true))))
      (fun t => (pitch? t).map fun p => (p.unconfirmed, p.issued)) = some (some (1, 2)) := by decide +kernel
/-- R15: while a dose frame of an earlier cast is queued, a new cast issues no stroke; with none queued it does. -/
theorem test_strokeTimerExpiry_doseQueued :
    let dose := { frame := frameOf 2 1 41 [0, 0, 3, 0xE8], entry := 0, owner := .pitchUnit 9 : Insertion }
    let s := busyPort (later 1000 (casting (some (castIn .metering true))))
    [[], [dose]].map (fun queue =>
        after .strokeTimerExpiry { s with loop := { s.loop with queue := queue } }
          (fun t => ((pitch? t).map PitchPart.issued, t.loop.queue.map Insertion.owner)))
      = [some (some 2, [.pitchUnit 1]), some (some 1, [.pitchUnit 9])] := by decide +kernel
/-- R115, R120: a cast that opens with a pause cause enters PAUSED, and its pump is driven off. -/
theorem test_journalReadbackDone_paused :
    let s := casting (some (castIn .opening false))
    let s := writing .verifying (openDraft true)
      { s with vessels := { s.vessels with whirlpool := { s.vessels.whirlpool with authority := .hand } } }
    let s := { s with store := storeWrite 0 (blockBytes 0 (openDraft true)) s.store }
    after (.journalReadbackDone .asHeld) s
      (fun t => (t.castMeter.record.map (fun c => (c.state, c.pauseCount)), match t.loop.port with
        | .sendingInsertion f => (f.dest, f.payload)
        | .sendingTransit | .idle => (0, []))) = some (some (.paused, 1), 40, [3, 0, 0, 0]) := by decide +kernel
theorem test_settleTimerExpiry :
    after .settleTimerExpiry (later 2000 (casting (some (castIn .settling false))))
      (fun t => t.castMeter.record.map Cast.state) = some (some .charging) := by decide +kernel
theorem test_firstActivation :
    after .firstActivation
      { base with tables := { plant with tariff := rowsOf 13 5 [[15000, 1, 1, 0, 1], [40000, 300, 0, 0, 0]] }, duty := .cleared }
      (fun t => (t.duty.tariff, t.journal.queue.length)) = some (.activating, 1) := by decide +kernel
theorem test_powerFailWarning :
    after .powerFailWarning (casting (some (castIn .metering false)))
      (fun t => (t.castMeter.record.map Cast.state, t.seqs.whirlpool.state)) = some (some .charging, .suspended) := by
  decide +kernel
theorem test_powerWarningWithdrawn :
    after .powerWarningWithdrawn { base with pins := { base.pins with powerFail := true } } (fun t => t.pins.powerFail)
      = some false := by decide +kernel
theorem test_journalProtectAsserted :
    after .journalProtectAsserted base (fun t => decide (.journalProtected ∈ t.agent.conditions)) = some true := by
  decide +kernel
/-- R166: the read that waits behind the record takes the store once the record is held. -/
theorem test_journalProtectAsserted_read :
    after .journalProtectAsserted
      { base with journal := { base.journal with
          queue := [openDraft false], turn := .record
          reads := [{ seq := 0, count := 1, page := 0, done := 0, entries := [] }] } }
      (fun t => t.journal.op) = some .reading := by decide +kernel
theorem test_journalWriteBegin :
    after .journalWriteBegin { base with journal := { base.journal with queue := [openDraft false], reservations := 1 } }
      (fun t => (t.journal.op, t.journal.head, t.journal.reservations)) = some (.erasing, 1, 0) := by decide +kernel
theorem test_journalEraseDone :
    after .journalEraseDone (writing .erasing (openDraft true) base) (fun t => t.journal.op) = some .programming := by
  decide +kernel
theorem test_journalProgramDone :
    after .journalProgramDone (writing .programming (openDraft true) base) (fun t => t.journal.op) = some .verifying := by
  decide +kernel
theorem test_reportTimerExpiry :
    after .reportTimerExpiry (later 50 base) (fun t => t.agent.reportTimer) = some (some 50) := by decide +kernel
theorem test_statusRead :
    after (.statusRead (ask (.statusRead 0))) State.reset (fun t => (t.agent.acked, alertAsserted t))
      = some ([.journalNotReady], false) := by decide +kernel
theorem test_clearConditions :
    after (.clearConditions (ask (.clearConditions [.frameErrors])))
      { base with
        loop := { base.loop with frameErrors := 9 }
        agent := { base.agent with conditions := [.frameErrors], latched := [.frameErrors] } }
      (fun t => (t.agent.conditions, t.loop.frameErrors)) = some ([], 0) := by decide +kernel
theorem test_tableWrite :
    after (.tableWrite (ask (.tableWrite [900])))
      { base with agent := { base.agent with
          window := some { table := 7, firstRow := 1, lastRow := 1, firstField := 0, lastField := 0, fieldMajor := false }
          writePtr := ⟨1, 0⟩ } }
      (fun t => readCell t 7 1 0) = some 900 := by decide +kernel
/-- R175, R177: a bank that becomes invalid and valid within one request has TARIFF_PENDING leave and join again. -/
theorem test_tableWrite_tariffPending :
    after (.tableWrite (ask (.tableWrite [0, 1])))
      { base with
        tables := { plant with tariff := rowsOf 13 5 [[15000, 1, 1, 0, 1], [40000, 300, 0, 0, 0]] }
        agent := { base.agent with
          conditions := [.tariffPending], acked := [.tariffPending]
          window := some { table := 8, firstRow := 0, lastRow := 0, firstField := 4, lastField := 4, fieldMajor := false }
          writePtr := ⟨0, 4⟩ } }
      (fun t => (readCell t 8 0 4, t.agent.conditions, t.agent.acked)) = some (1, [.tariffPending], []) := by decide +kernel
theorem test_partConfig :
    after (.partConfig (ask (.partConfig { supervisor := 9, fairness := 255, interval := 1000 }))) base
      (fun t => t.agent.config) = some { supervisor := 9, fairness := 255, interval := 1000 } := by decide +kernel
theorem test_resetFull_busy :
    after (.resetFull (ask (.reset false)) 1) (casting (some (castIn .opening false))) result
      = some (some (BitVec.ofNat 8 (resultCode .busy))) := by decide +kernel
theorem test_resetVessels :
    after (.resetVessels (ask (.reset true))) (brewing .mash (atStep .running 0)) (fun t => t.seqs.mash.state)
      = some .halted := by decide +kernel
theorem test_brewOpen :
    after (.brewOpen (ask (.brewOpen { number := 9, recipe := 0, fermenter := 3, strain := 1, override := 0, gravity := .pause, lag := .pause })))
      (withBrew .opened [] base) (fun t => (t.brews.getD 1 none).map Brew.number) = some (some 9) := by decide +kernel
theorem test_brewAssign :
    after (.brewAssign (ask (.brewAssign 7))) (withBrew .opened [] base)
      (fun t => (t.vessels.mash.occupancy, t.seqs.mash.state)) = some (.resident, .armed) := by decide +kernel
theorem test_brewAbandon :
    after (.brewAbandon (ask (.brewAbandon 7))) (brewing .mash (atStep .running 0))
      (fun t => ((brew? t 7).map Brew.state, t.seqs.mash.state)) = some (some .abandoned, .halted) := by decide +kernel
theorem test_brewRelease :
    after (.brewRelease (ask (.brewRelease 7))) (withBrew .cast [] base) (fun t => t.brews.getD 0 none) = some none := by
  decide +kernel
/-- R103: the additions of the freed brew leave the send queue, those of another stay. -/
theorem test_brewRelease_sends :
    after (.brewRelease (ask (.brewRelease 7)))
      { withBrew .cast [] base with boil := { BoilUnit.cleared with
          outstanding := true
          sendQueue := [{ brew := 7, index := 0, point := 17, quantity := 50 }, { brew := 8, index := 0, point := 17, quantity := 50 }] } }
      (fun t => t.boil.sendQueue.map SendEntry.brew) = some [8] := by decide +kernel
/-- 4.9: the lauter tun cleared after a stopped transfer. -/
theorem test_vesselClear :
    after (.vesselClear (ask (.vesselClear .lauter)))
      (holding .kettle .filling .cleared (holding .lauter .draining (loaded .halted)
        (withBrew .lautering [.lauter, .kettle] base)))
      (fun t => (t.vessels.lauter.occupancy, t.vessels.kettle.occupancy, t.seqs.kettle.state, (brew? t 7).map Brew.state))
      = some (.empty, .resident, .armed, some .boiling) := by decide +kernel
theorem test_vesselStart :
    after (.vesselStart (ask (.vesselStart .mash))) (brewing .mash (loaded .armed)) (fun t => t.seqs.mash.state)
      = some .running := by decide +kernel
theorem test_vesselHalt :
    after (.vesselHalt (ask (.vesselHalt .mash))) (brewing .mash (atStep .running 0))
      (fun t => (t.seqs.mash.state, t.seqs.mash.position)) = some (.halted, none) := by decide +kernel
theorem test_continueStep :
    after (.continueStep (ask (.continueStep .mash))) (brewing .mash (atStep .running 1)) (fun t => t.seqs.mash.position)
      = some (some 2) := by decide +kernel
theorem test_authority :
    after (.authority (ask (.authority .mash .hand))) (withHold (brewing .mash (atStep .running 0)))
      (fun t => (t.seqs.mash.state, slotHold t 0)) = some (.suspended, none) := by decide +kernel
theorem test_lock :
    after (.lock (ask (.lock [.mash] true))) base (fun t => (t.vessels.mash.supervisorLock, t.vessels.lauter.supervisorLock))
      = some (true, false) := by decide +kernel
theorem test_release :
    after (.release (ask (.release 0))) (withHold base) (fun t => (slotHold t 0, t.loop.queue.length)) = some (none, 1) := by
  decide +kernel
theorem test_discard :
    after (.discard (ask (.discard 0))) base result = some (some (BitVec.ofNat 8 (resultCode .notHeld))) := by decide +kernel
theorem test_castEnd :
    after (.castEnd (ask .castEnd)) (casting (some (castIn .metering false)))
      (fun t => t.castMeter.record.map fun c => (c.state, c.endCause)) = some (some (.settling, some .request)) := by
  decide +kernel
/-- 9.8: the settlement of cast 2,210. -/
theorem test_castSettle :
    after (.castSettle (ask (.castSettle 2210 3000000 11500)))
      { base with
        journal := { base.journal with orphans := [{ cast := 2210, brew := 7, fermenter := 3, tariffSeq := 5 }] }
        duty := { base.duty with account := { base.duty.account with ytd := 2037363 } } }
      (fun t => (t.duty.charges.map Charge.cdl, t.duty.charges.map Charge.d)) = some ([33983], [8666]) := by decide +kernel
theorem test_periodClose :
    after (.periodClose (ask (.periodClose true))) base (fun t => (t.journal.queue.length, t.agent.deferred.length))
      = some (1, 1) := by decide +kernel
theorem test_journalRetry :
    after (.journalRetry (ask .journalRetry)) { base with journal := { base.journal with failed := true, consecutive := 3 } }
      (fun t => (t.journal.failed, t.journal.consecutive)) = some (false, 0) := by decide +kernel
/-- R162, R177: a retry that finds no room fails at once; JOURNAL_FAILED has left and joins unacknowledged. -/
theorem test_journalRetry_noRoom :
    after (.journalRetry (ask .journalRetry))
      { base with
        journal := { base.journal with failed := true, consecutive := 3, queue := [openDraft true], reservations := 4096 }
        agent := { base.agent with conditions := [.journalFailed, .journalNearFull], acked := [.journalFailed, .journalNearFull] } }
      (fun t => (t.journal.failed, t.agent.conditions, t.agent.acked))
      = some (true, [.journalFailed, .journalNearFull], [.journalNearFull]) := by decide +kernel
theorem test_characterReceived :
    after (.characterReceived { value := 0xA3, control := true, stop := true }) base (fun t => t.loop.rx) = some (some []) := by
  decide +kernel
theorem test_resetInputReleased :
    after (.resetInputReleased 7) { State.cleared base.pins [] [] with pins := { base.pins with reset := true } }
      (fun t => (t.mode, t.stationAddress)) = some (.active, 7) := by decide +kernel
theorem test_unknownRequestCode :
    after (.unknownRequestCode 9 3 [30, 1]) base result = some (some (BitVec.ofNat 8 (resultCode .badRequest))) := by
  decide +kernel

/-! ### Witnesses: states and operands that meet the hypotheses of the statements -/

def quietOk (s : State) : Bool :=
  decide (s.mode = .active) && decide (s.tells = [])
    && (decide (s.loop.port ≠ .idle) || (decide (s.loop.transit = []) && decide (s.loop.queue = [])))

theorem quiet_of {s : State} (h : quietOk s = true) : Quiet s := by
  simp only [quietOk, Bool.and_eq_true, Bool.or_eq_true, decide_eq_true_eq] at h
  exact ⟨h.1.1, h.1.2, fun e => h.2.elim (fun x => absurd e x) id⟩

def takesOk (q : Queued) (s : State) : Bool := quietOk s && decide (s.agent.requests.head?.getD q = q)

theorem takes_of {q : Queued} {s : State} (h : takesOk q s = true) : Takes q s := by
  simp only [takesOk, Bool.and_eq_true, decide_eq_true_eq] at h
  exact ⟨quiet_of h.1, fun x hx => by rw [hx] at h; exact h.2⟩

def asksOk (rq : Request) (r : Req) (s : State) : Bool :=
  takesOk (queuedOf r.code rq) s && decide (parseReq s.stationAddress r.code rq.params = some r)

theorem asks_of {rq : Request} {r : Req} {s : State} (h : asksOk rq r s = true) : Asks rq r s := by
  simp only [asksOk, Bool.and_eq_true, decide_eq_true_eq] at h
  exact ⟨takes_of h.1, h.2⟩

theorem listening_of {s : State} (h : quietOk s = true) (rx : s.loop.rx = none) (link : s.loop.linkDown = false) :
    Listening s := ⟨quiet_of h, rx, link⟩

/-- Whether a frame is no frame error. -/
def goodOk (f : Frame) : Bool := decide (f.payload.length ≤ 120) && (frameSound f && shapeOk f)

theorem good_of {f : Frame} (h : goodOk f = true) : f.Good := by
  simp only [goodOk, Bool.and_eq_true, decide_eq_true_eq] at h
  exact ⟨h.1, h.2.1, h.2.2⟩

/-- Brew 7's request asked in a state, as every `Asks` below. -/
abbrev Asked (r : Req) (s : State) : Prop := Asks (ask r) r s

theorem base_listens : Listening base := listening_of (by decide +kernel) rfl rfl

def samplesOk (f : Frame) (i : SampleItem) (r : Nat) (x : Int) (s : State) : Bool :=
  quietOk s && decide (s.loop.rx = none ∧ s.loop.linkDown = false) && goodOk f
    && decide (f.kind = 0x01 ∧ f.source ≠ s.stationAddress ∧ f.hop.toNat < 64 ∧ f.dest = s.stationAddress
      ∧ sampleItems f.payload = some [i] ∧ findPoint s.tables f.source.toNat i.channel = some r
      ∧ itemValue (pointRow s.tables r) i = some (x, false) ∧ (i.quality = .good ∨ i.quality = .uncertain))

theorem samples_of {f : Frame} {i : SampleItem} {r : Nat} {x : Int} {s : State} (h : samplesOk f i r x s = true) :
    Samples f i r x false s := by
  simp only [samplesOk, Bool.and_eq_true, decide_eq_true_eq] at h
  obtain ⟨⟨⟨h1, h2, h3⟩, h4⟩, h5, h6, h7, h8, h9, h10, h11, h12⟩ := h
  exact ⟨listening_of h1 h2 h3, good_of h4, h5, h6, h7, h8, h9, h10, h11, h12⟩

/-! #### The machine -/

def waiting : State := { base with pending := [.linkTimerExpiry, .castOpenRetry] }

theorem witness_StepRunsTheFrontCommand : waiting.pending = .linkTimerExpiry :: [.castOpenRetry] := rfl

theorem witness_StepWithNoCommandWaiting :
    ((later 250 base).pending = [] ∧ ownStep (later 250 base) = some .linkTimerExpiry)
    ∧ (base.pending = [] ∧ ownStep base = none ∧ base.mode ≠ .inReset)
    ∧ (ownStep (State.cleared base.pins [] []) = none ∧ (State.cleared base.pins [] []).mode = .inReset) := by
  decide +kernel

theorem base_safe : Safe base where
  capacity := by constructor <;> decide +kernel
  store := by decide
  tells := rfl

theorem base_conditions : ∀ k, k ∈ base.agent.conditions ↔ condCause base k = true := by
  intro k
  cases k <;> first | decide +kernel | (rename_i v; cases v <;> decide +kernel)

theorem witness_Invariants :
    Safe base ∧ (∀ k, k ∈ base.agent.conditions ↔ condCause base k = true) ∧ ∃ t, step base = .next t ∧ t.mode = .active := by
  refine ⟨base_safe, base_conditions, tick base, ?_, by decide +kernel⟩
  have h : ownStep base = none := by decide +kernel
  show idle base = _
  unfold idle
  rw [h]

theorem witness_CommandsKeepModeAddressTimeAndStore :
    WellFormed .linkTimerExpiry ∧ (∃ t, exec .linkTimerExpiry base = .next t)
    ∧ Instr.linkTimerExpiry ≠ .powerFailWarning ∧ Instr.linkTimerExpiry ≠ .journalProtectAsserted
    ∧ Instr.linkTimerExpiry ≠ .journalEraseDone := by
  refine ⟨rfl, ⟨_, rfl⟩, ?_⟩
  decide

theorem witness_BypassOnlyRepeats : ({ base with mode := .bypass } : State).mode = .bypass := rfl

theorem witness_FullResetFromAnyState :
    (1 ≤ (1 : Byte).toNat ∧ (254 : Byte).toNat ≤ 254) ∧ ((0 : Byte).toNat = 0 ∧ (255 : Byte).toNat = 255)
    ∧ base.mode ≠ .inReset
    ∧ ((writing .programming (openDraft true) base).journal.op = .programming
        ∧ storeWf (writing .programming (openDraft true) base).store = true)
    ∧ ¬(base.journal.op = .erasing ∨ base.journal.op = .programming ∨ base.journal.op = .verifying) := by decide +kernel

/-! #### Encodings -/

theorem witness_RequestParametersRoundTrip :
    Req.ok 1 (.lock [] false) = true ∧ Req.ok 1 (.tableWrite (List.replicate 24 0)) = true
    ∧ Req.ok 1 (.partConfig { supervisor := 254, fairness := 1, interval := 10 }) = true
    ∧ Req.ok 1 (.castSettle 1 4294967295 40000) = true ∧ Req.ok 1 (.journalRead 0 1 255) = true := by decide +kernel

theorem witness_FrameBytesRoundTrip :
    (frameOf 0x10 2 3 (List.replicate 120 0)).payload.length ≤ 120
    ∧ 127 < (frameOf 0x10 2 3 (List.replicate 120 0)).bytes.length := by decide +kernel

/-- A TARIFF record's draft with its eight bands and four tiers. -/
def tariffDraft : Draft :=
  { body := .tariff { tariff with bands := tariff.bands ++ List.replicate 5 (0, 0), tiers := tariff.tiers ++ [(0, 0)] }
    brew := 0, period := 65535, skip := 255, placed := true }

theorem witness_JournalRecordsReadBack :
    (tariffDraft.skip ≤ 255 ∧ tariffDraft.brew < 65536 ∧ tariffDraft.period < 65536)
    ∧ (∃ i, tariffDraft.body = .tariff i ∧ i.bands.length = 8 ∧ i.tiers.length = 4 ∧ i.allowance < 2 ^ 24
        ∧ (∀ b ∈ i.bands, b.1 < 65536 ∧ b.2 < 2 ^ 24) ∧ ∀ t ∈ i.tiers, t.1 < 2 ^ 32 ∧ t.2 < 2 ^ 24)
    ∧ (∃ b, (openDraft true).body = .castOpen b ∧ b.cast < 2 ^ 32 ∧ b.fermenter < 256 ∧ b.strain < 256 ∧ b.rate < 65536)
    ∧ ∃ b : CloseBody, b.period = 65535 ∧ b.duty < 2 ^ 64 ∧ b.ytd < 2 ^ 64 := by
  refine ⟨by decide, ⟨_, rfl, by decide +kernel⟩, ⟨_, rfl, by decide +kernel⟩,
    ⟨{ period := 65535, casts := 0, dl := 0, cdl := 0, duty := 0, ytd := 0, yearEnd := false, castCount := 0 }, by decide +kernel⟩⟩

/-! #### The loop -/

/-- The part within a frame. -/
def midFrame (b : List Byte) : State := base.receiving (some b)

theorem witness_CharacterReception :
    (Quiet base ∧ base.loop.rx = none)
    ∧ (Quiet (midFrame [0x10, 2, 3, 0, 0]) ∧ (midFrame [0x10, 2, 3, 0, 0]).loop.rx = some [0x10, 2, 3, 0, 0]
        ∧ ([0x10, 2, 3, 0, 0, 121] : List Byte)[5]? = some 121 ∧ 120 < (121 : Byte).toNat
        ∧ ([0x10, 2, 3, 0, 0, 120] : List Byte)[5]? = some 120 ∧ 6 < 8 + (120 : Byte).toNat)
    ∧ (Quiet (midFrame [0x10, 2, 3, 0, 0, 0, 9])
        ∧ ([0x10, 2, 3, 0, 0, 0, 9, 9] : List Byte).length = 8 + (0 : Byte).toNat) := by
  refine ⟨⟨quiet_of (by decide +kernel), rfl⟩, ⟨quiet_of (by decide +kernel), rfl, by decide⟩, quiet_of (by decide +kernel), by decide⟩

/-- A passing frame of a kind with a payload. -/
def passing (kind : Byte) (payload : List Byte) : Frame := frameOf kind 9 20 payload

/-- A full transit buffer. -/
def fullTransit : State :=
  { busyPort base with loop := { (busyPort base).loop with transit := (busyPort base).loop.transit ++ [passing 0x10 [1]] } }

theorem witness_FramesForwarded :
    Listening base ∧ base.loop.transit.length < 2 ∧ base.loop.port = .idle
    ∧ Listening fullTransit ∧ 2 ≤ fullTransit.loop.transit.length
    ∧ ((passing 0x10 [1]).Good ∧ (passing 0x11 [1, 0]).Good ∧ (passing 0x12 [2, 0]).Good)
    ∧ ((passing 2 [9, 2, 0, 0]).Good ∧ guardDecision base (passing 2 [9, 2, 0, 0]) = .forward)
    ∧ (passing 0x10 [1]).hop.toNat < 64 ∧ (passing 0x10 [1]).source ≠ base.stationAddress
    ∧ (passing 0x10 [1]).dest ≠ base.stationAddress := by
  refine ⟨base_listens, by decide, rfl, listening_of (by decide +kernel) rfl rfl, by decide +kernel,
    ⟨good_of (by decide +kernel), good_of (by decide +kernel), good_of (by decide +kernel)⟩,
    ⟨good_of (by decide +kernel), by decide +kernel⟩, by decide +kernel, by decide +kernel, by decide +kernel⟩

/-- A SAMPLE and a NOTICE that pass, and the same addressed to the part (R10). -/
theorem witness_FramesTapped :
    (let f := frameOf 1 20 9 [1, 0, 1, 0, 0x1A, 0x90]
     let g := frameOf 1 20 1 [1, 0, 1, 0, 0x1A, 0x90]
     f.Good ∧ g.Good ∧ f.kind = 0x01 ∧ g.kind = f.kind ∧ g.source = f.source ∧ g.payload = f.payload
       ∧ f.dest ≠ base.stationAddress ∧ g.dest = base.stationAddress ∧ f.source ≠ base.stationAddress)
    ∧ (let f := frameOf 3 30 9 [0, 1, 0]
       let g := frameOf 3 30 1 [0, 1, 0]
       f.Good ∧ g.Good ∧ f.kind = 0x03 ∧ g.kind = f.kind ∧ g.source = f.source ∧ g.payload = f.payload)
    ∧ (Capacity base ∧ Capacity fullTransit ∧ base.loop.transit.length < 2 ∧ 2 ≤ fullTransit.loop.transit.length) := by
  refine ⟨⟨good_of (by decide +kernel), good_of (by decide +kernel), by decide +kernel⟩,
    ⟨good_of (by decide +kernel), good_of (by decide +kernel), by decide +kernel⟩, base_safe.capacity, ?_, by decide +kernel⟩
  constructor <;> decide +kernel

/-- A full request queue. -/
def requestsFull : State :=
  { base with agent := { base.agent with requests := List.replicate 8 { source := 9, tag := 0, payload := [26] } } }

theorem witness_FramesThatEndHere :
    (let bad := { frameOf 0x10 9 1 [1] with check := 0 }
     bad.payload.length ≤ 120 ∧ bad.check ≠ crc16 bad.covered)
    ∧ ((frameOf 0x10 1 20 [1]).Good ∧ (frameOf 0x10 1 20 [1]).source = base.stationAddress)
    ∧ (let stray := Frame.sealed { frameOf 0x10 9 20 [1] with hop := 64 }
       stray.Good ∧ 64 ≤ stray.hop.toNat)
    ∧ ((frameOf 0x11 9 1 [1, 0]).Good ∧ (frameOf 0x10 9 1 [1]).Good ∧ (frameOf 0x10 9 1 [1]).dest = base.stationAddress
        ∧ (frameOf 0x10 9 1 [1]).source ≠ base.stationAddress ∧ base.agent.requests.length < 8)
    ∧ (Listening requestsFull ∧ 8 ≤ requestsFull.agent.requests.length
        ∧ (frameOf 0x10 9 1 [1]).payload.head? = some 1) := by
  refine ⟨by decide +kernel, ⟨good_of (by decide +kernel), by decide +kernel⟩, ⟨good_of (by decide +kernel), by decide +kernel⟩,
    ⟨good_of (by decide +kernel), good_of (by decide +kernel), by decide +kernel⟩, listening_of (by decide +kernel) rfl rfl,
    by decide +kernel⟩

/-- A frame of the Management Agent in the insertion queue since loop time 0. -/
def queuedReply : Insertion := { frame := frameOf 0x11 1 9 [1, 0], entry := 0, owner := .agent }

/-- The port sending, one frame in the transit buffer behind it, and a REPLY waiting. -/
def bothWait : State :=
  { base with loop := { base.loop with
      port := .sendingInsertion (frameOf 0x11 1 9 [1, 0]), transit := [passing 0x10 [1]], queue := [queuedReply] } }

theorem busyPort_conditions : ∀ k, k ∈ (busyPort base).agent.conditions ↔ condCause (busyPort base) k = true := by
  intro k
  rw [show condCause (busyPort base) k = condCause base k by cases k <;> rfl]
  exact base_conditions k

theorem witness_DownstreamArbiterChooses :
    (base.mode = .active ∧ base.tells = [] ∧ base.loop.port = .idle)
    ∧ ((busyPort base).tells = [] ∧ (busyPort base).loop.port = .sendingTransit ∧ (busyPort base).loop.transit.tail = []
        ∧ (busyPort base).loop.queue = [])
    ∧ (fullTransit.mode = .active ∧ fullTransit.loop.port ≠ .idle ∧ fullTransit.loop.transit.tail ≠ []
      ∧ fullTransit.loop.queue = [])
    ∧ (bothWait.loop.port ≠ .idle ∧ bothWait.loop.queue = queuedReply :: [] ∧ bothWait.loop.transit.length = 1
        ∧ queuedReply.owner = .agent ∧ bothWait.tells = []
        ∧ (later 19 bothWait).agent.config.fairness = 20
        ∧ ((later 19 bothWait).loopTime - queuedReply.entry).toNat < 20
        ∧ 20 ≤ ((later 20 bothWait).loopTime - queuedReply.entry).toNat)
    ∧ (let alone := { bothWait with loop := { bothWait.loop with transit := [] } }
       alone.loop.port ≠ .idle ∧ alone.loop.transit = [])
    ∧ (let full := { bothWait with loop := { bothWait.loop with transit := [passing 0x10 [1], passing 0x10 [1]] } }
       full.loop.port ≠ .idle ∧ 2 ≤ full.loop.transit.length) := by decide +kernel

/-- An insertion queue on a busy port. -/
def queueOf (l : List Insertion) : State := { busyPort base with loop := { (busyPort base).loop with queue := l } }

/-- A DRIVE of the mash's sequencer, and a REPORT EVENTS frame, in the queue. -/
def queuedDrive : Insertion := { frame := frameOf 2 1 20 [2, 0, 0, 1], entry := 0, owner := .sequencer .mash }
def queuedEvents : Insertion := { frame := frameOf 0x12 1 9 [2, 0], entry := 0, owner := .agent }

theorem witness_InsertionQueueOffers :
    (let s := queueOf ([queuedReply] ++ queuedDrive :: [queuedEvents])
     s.loop.port ≠ .idle ∧ queuedDrive.frame.kind = 0x02 ∧ ¬(queuedReply.frame.kind = 0x02) ∧ s.loop.queue.length < 32)
    ∧ (let s := queueOf ([queuedReply] ++ queuedEvents :: List.replicate 30 queuedReply)
       s.loop.port ≠ .idle ∧ s.loop.queue.length = 32 ∧ queuedEvents.frame.kind = 0x12
         ∧ queuedEvents.frame.payload.head? = some 2 ∧ ∀ x ∈ s.loop.queue, x.frame.kind ≠ 0x02)
    ∧ (let s := queueOf (List.replicate 32 queuedReply)
       s.loop.port ≠ .idle ∧ 32 ≤ s.loop.queue.length ∧ ∀ x ∈ s.loop.queue, x.frame.kind = 0x11) := by decide +kernel

/-- A state with LINK_DOWN set, and the frame of the part's own that ends it. -/
def linkLost (s : State) : State := { s with loop := { s.loop with linkDown := true, linkTimer := none } }
def ownFrame : Frame := frameOf 0x10 1 20 [1]

theorem witness_LinkDownEnds :
    ownFrame.Good ∧ ownFrame.source = base.stationAddress
    ∧ (let s := linkLost (brewing .mash (atStep .suspended 0))
       s.mode = .active ∧ s.tells = [] ∧ s.loop.port = .idle ∧ s.loop.transit = [] ∧ s.loop.queue = [] ∧ s.loop.rx = none
         ∧ s.loop.linkDown = true ∧ s.seqs.mash.state = .suspended ∧ (currentStep s .mash).isSome = true
         ∧ s.seqs.kettle.state = .idle)
    ∧ ¬Suspending (brewing .mash (atStep .suspended 0)) .mash
    ∧ Suspending { brewing .mash (atStep .suspended 0) with pins := { base.pins with powerFail := true } } .mash := by
  refine ⟨good_of (by decide +kernel), by decide +kernel, by decide +kernel, ?_, Or.inr (Or.inr (Or.inr rfl))⟩
  unfold Suspending
  decide +kernel

theorem witness_LinkAndPowerSuspend :
    base.mode = .active ∧ (later 250 base).loop.linkTimer = some 0 ∧ 250 ≤ ((later 250 base).loopTime - 0).toNat
    ∧ base.pins.powerFail = false
    ∧ [CastState.metering, .paused, .settling].all fun st =>
        (casting (some (castIn st true))).castMeter.record == some (castIn st true) && (castIn st true).state == st := by
  decide +kernel

/-! #### Points, the guard and authority -/

theorem witness_SampleItemsScale :
    ((scaled .flowCount 0 0).kind = .flowCount ∧ (item .count 4294967295).format = .count)
    ∧ ((scaled .temperature 1 0).kind = .temperature ∧ (scaled .gravity 1 0).kind = .gravity ∧ (scaled .level 1 0).kind = .level
        ∧ (item .short (-32768)).format ≠ .count)
    ∧ ((scaled .heatDrive 1 0).kind.isDrive = true ∧ (scaled .panel 1 0).kind = .panel) := by decide

/-- A SAMPLE of the mash's temperature point with one item of a quality, 68.00. -/
def mashSample (channel quality : Byte) : Frame := frameOf 1 20 1 [1, channel, 1, quality, 0x1A, 0x90]

/-- Point 0 with its entry replaced. -/
def withEntry (e : PointEntry) : State := { base with points := base.points.set 0 e }

theorem witness_SamplesUpdateTheirPoints :
    (Listening base ∧ (mashSample 0 0).Good ∧ (mashSample 0 0).kind = 0x01 ∧ (mashSample 0 0).source ≠ base.stationAddress
        ∧ (mashSample 0 0).hop.toNat < 64 ∧ (mashSample 0 0).dest = base.stationAddress)
    ∧ ((sampleItems (mashSample 9 0).payload).map List.length = some 1
        ∧ findPoint base.tables 20 9 = none ∧ findPoint base.tables 20 0 = some 0 ∧ findPoint base.tables 20 2 = some 12)
    ∧ (itemValue (pointRow base.tables 12) (item .short 6800) = none
        ∧ itemValue (pointRow base.tables 0) (item .short 6800) = some (6800, false))
    ∧ ((sampleItems (mashSample 0 2).payload).bind List.head? = some { item .short 6800 with quality := .bad }
        ∧ (entryOf (withEntry .empty) 0).quality = .stale ∧ (entryOf base 0).quality ≠ .stale
        ∧ (sampleItems (mashSample 0 1).payload).bind List.head? = some { item .short 6800 with quality := .uncertain }) := by
  refine ⟨⟨base_listens, good_of (by decide +kernel), ?_⟩, ?_⟩ <;> decide +kernel

theorem witness_StaleTimerExpires :
    (later 10000 base).mode = .active ∧ pointValid base.tables 0 = true ∧ (entryOf (later 10000 base) 0).staleTimer = some 0
    ∧ natCell base.tables.point 0 6 = 10000 ∧ ((later 10000 base).loopTime - 0).toNat = 10000
    ∧ ((later 9999 base).loopTime - 0).toNat < 10000 ∧ 0 < base.points.length ∧ vesselValid base.tables .mash = true
    ∧ (vesselRow base.tables .mash).pv = 0 ∧ (brewing .mash (atStep .running 0)).seqs.mash.state = .running := by decide +kernel

/-- A DRIVE of station 9 for the mash's heat point, with an origin. -/
def heatDrive (origin : Byte) : Frame := frameOf 2 9 20 [2, origin, 1, 0x90]

/-- The mash in HAND. -/
def mashInHand : State := { base with vessels := { base.vessels with mash := { VesselRec.cleared with authority := .hand } } }

/-- Every slot holding. -/
def slotsFull : State := { base with slots := List.replicate 4 (some held) }

theorem witness_GuardDecidesDrives :
    (Listening base ∧ (heatDrive 1).Good ∧ (heatDrive 1).kind = 0x02 ∧ (heatDrive 1).source ≠ base.stationAddress
        ∧ (heatDrive 1).dest ≠ base.stationAddress ∧ (heatDrive 1).hop.toNat < 64)
    ∧ ((heatDrive 0).payload.getD 1 0 = 0 ∧ driveRow base (heatDrive 0) = some 12
        ∧ (pointRow base.tables 12).binding = .vessel .mash ∧ (pointRow base.tables 12).owned = true
        ∧ (frameOf 2 9 20 [9, 0, 1, 0x90]).payload.getD 1 0 = 0 ∧ driveRow base (frameOf 2 9 20 [9, 0, 1, 0x90]) = none)
    ∧ ((mashInHand.vessels.get .mash).authority = .hand ∧ (base.vessels.get .mash).authority = .auto
        ∧ (heatDrive 2).payload.getD 1 0 = 2 ∧ (heatDrive 1).payload.getD 1 0 = 1)
    ∧ ((∀ m < 1, slotHold (withHold base) m ≠ none) ∧ slotHold (withHold base) 1 = none
        ∧ ∀ n < 4, slotHold slotsFull n ≠ none) := by
  refine ⟨⟨base_listens, good_of (by decide +kernel), ?_⟩, ?_⟩ <;> decide +kernel

/-- A full insertion queue of REPLYs on a busy port. -/
def fullQueue (s : State) : State :=
  { busyPort s with loop := { (busyPort s).loop with queue := List.replicate 32 queuedReply } }

theorem witness_HoldSlotsEmpty :
    ((withHold base).mode = .active ∧ (withHold base).tells = [] ∧ slotHold (withHold base) 0 = some held
        ∧ ((later 30000 base).loopTime - held.time).toNat = 30000 ∧ ((later 29999 base).loopTime - held.time).toNat < 30000
        ∧ slotHold base 3 = none)
    ∧ (Asked (.release 0) (withHold base) ∧ (∀ q ∈ (withHold base).loop.queue, q.owner ≠ .boilUnit)
        ∧ (offer held.frame .guardUnit (taken (withHold base))).1.taken = true)
    ∧ (Asked (.release 0) (fullQueue (withHold base)) ∧ (∀ q ∈ (fullQueue (withHold base)).loop.queue, q.owner = .agent)
        ∧ (offer held.frame .guardUnit (taken (fullQueue (withHold base)))).1.taken = false)
    ∧ Asked (.release 3) base ∧ Asked (.discard 0) (withHold base) ∧ Asked (.discard 3) base := by
  refine ⟨by decide +kernel, ⟨asks_of (by decide +kernel), by decide +kernel⟩, ⟨asks_of (by decide +kernel), by decide +kernel⟩,
    asks_of (by decide +kernel), asks_of (by decide +kernel), asks_of (by decide +kernel)⟩

/-- The mash with its supervisor lock set. -/
def mashLocked : State :=
  { base with vessels := { base.vessels with mash := { VesselRec.cleared with supervisorLock := true } } }

theorem witness_AuthorityRequests :
    (Asked (.authority .mash .hand) mashLocked ∧ (mashLocked.vessels.get .mash).authority = .auto
        ∧ (mashLocked.vessels.get .mash).supervisorLock = true)
    ∧ (Asked (.authority .mash .auto) base ∧ (base.vessels.get .mash).authority = .auto)
    ∧ (Asked (.authority .mash .hand) (brewing .mash (atStep .running 0))
        ∧ ((brewing .mash (atStep .running 0)).vessels.get .mash).locked = false)
    ∧ Asked (.authority .mash .auto) mashInHand := by
  refine ⟨⟨asks_of (by decide +kernel), by decide +kernel⟩, ⟨asks_of (by decide +kernel), by decide +kernel⟩,
    ⟨asks_of (by decide +kernel), by decide +kernel⟩, asks_of (by decide +kernel)⟩

theorem witness_LockRequests : Asked (.lock [] true) base ∧ Asked (.lock vessels false) mashLocked :=
  ⟨asks_of (by decide +kernel), asks_of (by decide +kernel)⟩

/-- A notice of the mash's panel. -/
def panelNotice (code : Byte) : Frame := frameOf 3 30 1 [0, code, 0]

/-- Brew 7's transfer from the mash under way. -/
def transferring (destination : SeqState) : State :=
  holding .lauter .filling (if destination = .idle then .cleared else loaded destination)
    (holding .mash .draining (atStep .running 2) (withBrew .mashing [.mash, .lauter] base))

/-- CONTINUE from the kettle's panel, and STROKE_DONE from the dosing station. -/
def kettleContinue : Frame := frameOf 3 32 1 [0, 4, 0]
def strokeNotice : Frame := frameOf 3 41 1 [0, 5, 0]

theorem witness_ContinueNotices :
    (kettleContinue.Good ∧ (panelNotice 4).Good)
    ∧ (Listening boilPending ∧ Listening (brewing .mash (atStep .running 0)) ∧ Listening (brewing .mash (atStep .running 1))
        ∧ Listening (transferring .idle) ∧ Listening (transferring .halted))
    ∧ (findPoint plant kettleContinue.source.toNat 0 = some 10 ∧ (pointRow plant 10).kind = .panel
        ∧ (pointRow plant 10).binding = .vessel .kettle ∧ kettleContinue.payload.getD 1 0 = 4
        ∧ (currentStep boilPending .kettle).map StepRow.kind = some .boil ∧ boilPending.boil.pending = some 1
        ∧ boilPending.vessels.kettle.occupant = some 7 ∧ brew? boilPending 7 = some (brewIn .boiling [.kettle])
        ∧ (currentStep (brewing .kettle (atStep .running 0)) .kettle).map StepRow.kind = some .boil
        ∧ (brewing .kettle (atStep .running 0)).boil.pending = none)
    ∧ ((currentStep (brewing .mash (atStep .running 0)) .mash).map StepRow.kind = some .hold
        ∧ (currentStep (brewing .mash (atStep .running 1)) .mash).map StepRow.kind = some .wait
        ∧ (currentStep (transferring .idle) .mash).map StepRow.kind = some .transfer
        ∧ (transferring .idle).vessels.mash.occupant = some 7 ∧ destinationOf .mash = some .lauter
        ∧ (transferring .idle).seqs.lauter.state = .idle ∧ (transferring .halted).seqs.lauter.state = .halted) := by
  refine ⟨⟨good_of (by decide +kernel), good_of (by decide +kernel)⟩,
    ⟨listening_of (by decide +kernel) rfl rfl, listening_of (by decide +kernel) rfl rfl,
      listening_of (by decide +kernel) rfl rfl, listening_of (by decide +kernel) rfl rfl,
      listening_of (by decide +kernel) rfl rfl⟩, by decide +kernel, by decide +kernel⟩

/-- A SAMPLE for the part of one GOOD item. -/
def sampleOf (source channel format : Byte) (raw : List Byte) : Frame := frameOf 1 source 1 ([1, channel, format, 0] ++ raw)

/-- A SAMPLE of several items, two of them for one point. -/
theorem witness_SampleOfItems :
    let f := frameOf 1 20 1 [3, 0, 1, 0, 0x1A, 0x90, 0, 1, 0, 0x19, 0x64, 9, 1, 2, 0, 0]
    Listening base ∧ f.Good ∧ f.kind = 0x01 ∧ f.source ≠ base.stationAddress ∧ f.hop.toNat < 64
      ∧ f.dest = base.stationAddress
      ∧ sampleItems f.payload = some [item .short 6800, item .short 6500, { item .short 0 with channel := 9, quality := .bad }]
      ∧ findPoint base.tables 20 0 = some 0 ∧ findPoint base.tables 20 9 = none := by
  refine ⟨base_listens, good_of (by decide +kernel), ?_⟩
  decide +kernel

/-- Level samples at the empty level and one above it, of the mash with and without its transfer, and of the whirlpool
with a cast. -/
theorem witness_LevelSamples :
    let i (x : Int) := { item .short x with channel := 1 }
    (Samples (sampleOf 20 1 1 [0, 51]) (i 51) 4 51 false (transferring .idle)
        ∧ Samples (sampleOf 20 1 1 [0, 50]) (i 50) 4 50 false (transferring .idle)
        ∧ Samples (sampleOf 20 1 1 [0, 50]) (i 50) 4 50 false (transferring .halted)
        ∧ Samples (sampleOf 20 1 1 [0, 50]) (i 50) 4 50 false base)
    ∧ (DeliversTo (transferring .idle) 4 [] [.mash] false ∧ DeliversTo (transferring .halted) 4 [] [.mash] false
        ∧ DeliversTo base 4 [] [.mash] false ∧ (vesselRow base.tables .mash).emptyLevel = 50)
    ∧ ((currentStep (transferring .idle) .mash).map StepRow.kind = some .transfer
        ∧ (transferring .idle).seqs.mash.phase = .inEffect ∧ (transferring .idle).seqs.mash.state = .running
        ∧ (transferring .idle).vessels.mash.occupant = some 7 ∧ destinationOf .mash = some .lauter
        ∧ (transferring .idle).seqs.lauter.state = .idle ∧ (transferring .halted).seqs.lauter.state = .halted
        ∧ currentStep base .mash = none)
    ∧ (let s := casting (some (castIn .paused false))
       Samples (sampleOf 23 1 1 [0, 50]) (i 50) 7 50 false s ∧ DeliversTo s 7 [] [.whirlpool] false
         ∧ (castIn .paused false).state = .paused) := by
  refine ⟨⟨samples_of (by decide +kernel), samples_of (by decide +kernel), samples_of (by decide +kernel),
    samples_of (by decide +kernel)⟩, ⟨?_, ?_, ?_, by decide +kernel⟩, by decide +kernel, samples_of (by decide +kernel), ?_, rfl⟩
  all_goals constructor <;> decide +kernel

theorem witness_StrokeNotices :
    (strokeNotice.Good ∧ Listening (casting none) ∧ Listening (casting (some (castIn .metering true)))
        ∧ Listening (casting (some (castIn .charging false))))
    ∧ (strokeNotice.payload.getD 1 0 = 5 ∧ findPoint plant strokeNotice.source.toNat 0 = some 22
        ∧ (pointRow plant 22).kind = .doseDrive ∧ lineValid plant = true ∧ (lineRow plant).dose = 22)
    ∧ (({ castIn .metering false with pitch := none } : Cast).settleOver = false ∧ (castIn .charging false).state = .charging)
    ∧ ((castIn .metering true).pitch.map (fun p => (p.outstanding, p.confirmed, p.issued)) = some (true, 0, 1)
        ∧ (castIn .metering false).pitch.map (fun p => (p.outstanding, p.unconfirmed)) = some (false, 0)
        ∧ (castIn .metering false).settleOver = false
        ∧ ((castIn .metering false).pitch.map fun p => 0 < ({ p with unconfirmed := 1 } : PitchPart).unconfirmed)
          = some True) := by
  refine ⟨⟨good_of (by decide +kernel), listening_of (by decide +kernel) rfl rfl, listening_of (by decide +kernel) rfl rfl,
    listening_of (by decide +kernel) rfl rfl⟩, by decide +kernel, by decide +kernel, by decide +kernel, by decide +kernel, rfl, ?_⟩
  simp [castIn, newPitch, brewIn]

theorem witness_PanelNoticesAct :
    (Listening base ∧ (panelNotice 1).Good ∧ (panelNotice 2).Good ∧ (panelNotice 3).Good ∧ (panelNotice 1).kind = 0x03
        ∧ (panelNotice 1).source ≠ base.stationAddress ∧ (panelNotice 1).dest = base.stationAddress
        ∧ findPoint base.tables (panelNotice 1).source.toNat 0 = some 8 ∧ (pointRow base.tables 8).kind = .panel
        ∧ (pointRow base.tables 8).binding = .vessel .mash)
    ∧ (Listening mashInHand ∧ (mashInHand.vessels.get .mash).authority = .hand)
    ∧ (Listening mashLocked ∧ (mashLocked.vessels.get .mash).authority = .auto
        ∧ (mashLocked.vessels.get .mash).supervisorLock = true)
    ∧ (Listening (brewing .mash (atStep .running 0)) ∧ (brewing .mash (atStep .running 0)).seqs.mash.state = .running) := by
  refine ⟨⟨base_listens, good_of (by decide +kernel), good_of (by decide +kernel), good_of (by decide +kernel), ?_⟩,
    ⟨listening_of (by decide +kernel) rfl rfl, rfl⟩, ⟨listening_of (by decide +kernel) rfl rfl, by decide +kernel⟩,
    listening_of (by decide +kernel) rfl rfl, rfl⟩
  decide +kernel

/-! #### Brews and their vessels -/

/-- The fields of a brew to open. -/
def fields (number recipe strain : Nat) : BrewFields :=
  { number := number, recipe := recipe, fermenter := 1, strain := strain, override := 0, gravity := .pause, lag := .pause }

/-- A full Brew Table. -/
def brewsFull : State := { base with brews := List.replicate 6 (some (brewIn .opened [])) }

theorem witness_BrewOpenRequests :
    (Asked (.brewOpen (fields 7 0 1)) (withBrew .opened [] base)
        ∧ some (brewIn .opened []) ∈ (withBrew .opened [] base).brews ∧ (brewIn .opened []).number = 7)
    ∧ (Asked (.brewOpen (fields 65535 0 1)) brewsFull ∧ (∀ b ∈ brewsFull.brews, b = some (brewIn .opened [])))
    ∧ (Asked (.brewOpen (fields 9 15 0)) base ∧ recipeValid base.tables 15 = false ∧ base.brews[0]? = some none)
    ∧ (Asked (.brewOpen (fields 9 0 12)) base ∧ recipeValid base.tables 0 = true ∧ strainValid base.tables 11 = false)
    ∧ Asked (.brewOpen (fields 9 0 1)) (withBrew .opened [] base)
    ∧ ((withBrew .opened [] base).brews[1]? = some none ∧ strainValid base.tables 0 = true
        ∧ (∀ v : Vessel, v ∈ vessels → ∀ pos < listCount base.tables 0 v, stepValid base.tables (listRow base.tables 0 v pos) = true)
        ∧ ∀ i < (recipeRow base.tables 0).addCount, additionValid base.tables (additionListRow base.tables 0 i) = true) := by
  refine ⟨⟨asks_of (by decide +kernel), by decide +kernel⟩, ⟨asks_of (by decide +kernel), by decide +kernel⟩,
    ⟨asks_of (by decide +kernel), by decide +kernel⟩, ⟨asks_of (by decide +kernel), by decide +kernel⟩,
    asks_of (by decide +kernel), by decide +kernel⟩

theorem witness_BrewAssignRequests :
    (Asked (.brewAssign 8) base ∧ brew? base 8 = none)
    ∧ (Asked (.brewAssign 7) (withBrew .cast [] base) ∧ brew? (withBrew .cast [] base) 7 = some (brewIn .cast []))
    ∧ (Asked (.brewAssign 7) (holding .mash .resident .cleared (withBrew .opened [] base)))
    ∧ (Asked (.brewAssign 7) (withBrew .opened [] base) ∧ (withBrew .opened [] base).vessels.mash.occupancy = .empty
        ∧ vesselValid base.tables .mash = true) := by
  refine ⟨⟨asks_of (by decide +kernel), by decide +kernel⟩, ⟨asks_of (by decide +kernel), by decide +kernel⟩,
    asks_of (by decide +kernel), asks_of (by decide +kernel), by decide +kernel⟩

theorem witness_BrewAbandonRequests :
    (Asked (.brewAbandon 8) base ∧ brew? base 8 = none)
    ∧ (Asked (.brewAbandon 7) (withBrew .abandoned [] base)
        ∧ brew? (withBrew .abandoned [] base) 7 = some (brewIn .abandoned []))
    ∧ (Asked (.brewAbandon 7) (brewing .mash (atStep .running 0))
        ∧ brew? (brewing .mash (atStep .running 0)) 7 = some (brewIn .mashing [.mash])) := by
  refine ⟨⟨asks_of (by decide +kernel), by decide +kernel⟩, ⟨asks_of (by decide +kernel), by decide +kernel⟩,
    asks_of (by decide +kernel), by decide +kernel⟩

theorem witness_BrewReleaseRequests :
    (Asked (.brewRelease 8) base ∧ ∀ b ∈ base.brews, b = none)
    ∧ (Asked (.brewRelease 7) (withBrew .cast [] base)
        ∧ (withBrew .cast [] base).brews[0]? = some (some (brewIn .cast [])) ∧ (brewIn .cast []).occupied = [])
    ∧ (Asked (.brewRelease 7) (withBrew .abandoned [.mash] base) ∧ (brewIn .abandoned [.mash]).occupied ≠ []) := by
  refine ⟨⟨asks_of (by decide +kernel), by decide +kernel⟩, ⟨asks_of (by decide +kernel), by decide +kernel⟩,
    asks_of (by decide +kernel), by decide +kernel⟩

theorem witness_RecordReadRequests :
    (Asked (.brewRead 7 255) (withBrew .cast [] base) ∧ Asked (.brewRead 8 0) base ∧ brew? base 8 = none)
    ∧ (Asked (.castRead 0) (casting (some (castIn .closed false))) ∧ Asked (.castRead 255) base ∧ base.castMeter.record = none)
    ∧ (Asked .dutyRead base ∧ base.journal.mount = .ready ∧ Asked .dutyRead State.reset
        ∧ State.reset.journal.mount ≠ .ready)
    ∧ (List.replicate 117 (0 : Byte)).length ≤ 255 * 116 ∧ 1 < pageCount (List.replicate 117 (0 : Byte)) := by
  refine ⟨⟨asks_of (by decide +kernel), asks_of (by decide +kernel), by decide +kernel⟩,
    ⟨asks_of (by decide +kernel), asks_of (by decide +kernel), rfl⟩,
    ⟨asks_of (by decide +kernel), rfl, asks_of (by decide +kernel), by decide +kernel⟩, by decide +kernel⟩

/-- Brew 7 in transfer from the lauter tun to the kettle, the transfer stopped in a state of each sequencer. -/
def stopped (source destination : SeqState) : State :=
  holding .kettle .filling (loaded destination) (holding .lauter .draining (loaded source)
    (withBrew .lautering [.lauter, .kettle] base))

theorem witness_VesselClearRequests :
    (Asked (.vesselClear .mash) base ∧ (base.vessels.get .mash).occupancy = .empty)
    ∧ (Asked (.vesselClear .whirlpool) (casting (some (castIn .opening false)))
        ∧ (castIn .opening false).state ≠ .closed ∧ ((casting none).vessels.get .whirlpool).occupancy ≠ .empty)
    ∧ (Asked (.vesselClear .mash) (brewing .mash (loaded .armed)))
    ∧ (Asked (.vesselClear .kettle) (stopped .running .idle) ∧ sourceOf .kettle = some .lauter
        ∧ ((stopped .running .idle).seqs.get .lauter).state ≠ .halted)
    ∧ (Asked (.vesselClear .mash) (brewing .mash (loaded .halted))
        ∧ brew? (brewing .mash (loaded .halted)) 7 = some (brewIn .mashing [.mash]))
    ∧ (Asked (.vesselClear .lauter) (stopped .halted .idle) ∧ Asked (.vesselClear .lauter) (stopped .halted .halted)
        ∧ destinationOf .lauter = some .kettle ∧ ((stopped .halted .idle).vessels.get .lauter).occupancy = .draining)
    ∧ (Asked (.vesselClear .kettle) (stopped .halted .idle)
        ∧ ((stopped .halted .idle).vessels.get .kettle).occupancy = .filling) := by
  refine ⟨⟨asks_of (by decide +kernel), by decide +kernel⟩, ⟨asks_of (by decide +kernel), by decide +kernel⟩,
    asks_of (by decide +kernel), ⟨asks_of (by decide +kernel), by decide +kernel⟩, ⟨asks_of (by decide +kernel), by decide +kernel⟩,
    ⟨asks_of (by decide +kernel), asks_of (by decide +kernel), by decide +kernel⟩, asks_of (by decide +kernel), by decide +kernel⟩

/-! #### Sequencers and the boil -/

/-- A state under the power-fail warning. -/
def warned (s : State) : State := { s with pins := { s.pins with powerFail := true } }

theorem witness_VesselStartRequests :
    Asked (.vesselStart .whirlpool) (casting (some (castIn .charging false)))
    ∧ (Asked (.vesselStart .mash) base ∧ base.seqs.mash.state ≠ .armed ∧ base.seqs.mash.state ≠ .halted)
    ∧ (Asked (.vesselStart .mash) (brewing .mash (loaded .armed)) ∧ (brewing .mash (loaded .armed)).seqs.mash.state = .armed)
    ∧ (Asked (.vesselStart .mash) (brewing .mash (loaded .halted))
        ∧ (brewing .mash (loaded .halted)).seqs.mash.list ≠ none
        ∧ brew? (brewing .mash (loaded .halted)) 7 = some (brewIn .mashing [.mash]))
    ∧ Asked (.vesselStart .mash) (warned (brewing .mash (loaded .armed)))
    ∧ Asked (.vesselStart .mash) (holding .mash .resident (loaded .halted) (withBrew .abandoned [.mash] base)) := by
  refine ⟨asks_of (by decide +kernel), ⟨asks_of (by decide +kernel), by decide +kernel⟩,
    ⟨asks_of (by decide +kernel), by decide +kernel⟩, ⟨asks_of (by decide +kernel), by decide +kernel⟩,
    asks_of (by decide +kernel), asks_of (by decide +kernel)⟩

theorem witness_Suspending : Suspending (warned base) .mash ∧ ¬Suspending base .mash := by
  constructor
  · exact Or.inr (Or.inr (Or.inr rfl))
  · unfold Suspending; decide +kernel

theorem witness_GroupStartRequests :
    (Asked (.groupStart 3) base ∧ vessels.all fun v => (vesselRow base.tables v).group != 3)
    ∧ (Asked (.groupStart 0) (brewing .mash (loaded .armed)) ∧ (vesselRow plant .mash).group = 0)
    ∧ (Takes (queuedOf 15 { source := 9, tag := 3, params := [4] }) base ∧ 3 < (4 : Byte).toNat) := by
  refine ⟨⟨asks_of (by decide +kernel), by decide +kernel⟩, ⟨asks_of (by decide +kernel), by decide +kernel⟩,
    takes_of (by decide +kernel), by decide⟩

theorem witness_VesselHaltRequests :
    Asked (.vesselHalt .whirlpool) (casting (some (castIn .settling true)))
    ∧ Asked (.vesselHalt .mash) (brewing .mash (atStep .running 0)) ∧ Asked (.vesselHalt .mash) base
    ∧ (brewing .mash (atStep .running 0)).seqs.mash.state = .running ∧ base.seqs.mash.state = .idle
    ∧ heated .mash = true := by
  refine ⟨asks_of (by decide +kernel), asks_of (by decide +kernel), asks_of (by decide +kernel), rfl, rfl, rfl⟩

theorem witness_ContinueRequests :
    (Asked (.continueStep .mash) (brewing .mash (atStep .running 0))
        ∧ (currentStep (brewing .mash (atStep .running 0)) .mash).map StepRow.kind = some .hold)
    ∧ (Asked (.continueStep .kettle) (brewing .kettle (atStep .running 0))
        ∧ (currentStep (brewing .kettle (atStep .running 0)) .kettle).map StepRow.kind = some .boil
        ∧ (brewing .kettle (atStep .running 0)).boil.pending = none)
    ∧ (Asked (.continueStep .kettle) boilPending ∧ boilPending.boil.pending = some 1
        ∧ boilPending.vessels.kettle.occupant = some 7 ∧ brew? boilPending 7 = some (brewIn .boiling [.kettle]))
    ∧ (Asked (.continueStep .mash) (brewing .mash (atStep .running 1))
        ∧ (currentStep (brewing .mash (atStep .running 1)) .mash).map StepRow.kind = some .wait)
    ∧ (Asked (.continueStep .mash) (transferring .idle) ∧ Asked (.continueStep .mash) (transferring .halted)
        ∧ (currentStep (transferring .idle) .mash).map StepRow.kind = some .transfer
        ∧ destinationOf .mash = some .lauter ∧ (transferring .idle).seqs.lauter.state = .idle
        ∧ (transferring .halted).seqs.lauter.state = .halted) := by
  refine ⟨⟨asks_of (by decide +kernel), by decide +kernel⟩, ⟨asks_of (by decide +kernel), by decide +kernel⟩,
    ⟨asks_of (by decide +kernel), by decide +kernel⟩, ⟨asks_of (by decide +kernel), by decide +kernel⟩,
    asks_of (by decide +kernel), asks_of (by decide +kernel), by decide +kernel⟩

/-- The lauter tun at its HOLD of 2 s, its hold timer running; the mash at its HOLD with the refresh timer running. -/
def resting : State := brewing .lauter { atStep .running 0 with holdSince := some 0 }
def refreshing : State := busyPort (brewing .mash { atStep .running 0 with lastDemand := 732, refreshTimer := some 0 })

/-- The same after a forced zero that no computed demand has followed (R94). -/
def unrefreshed : State := brewing .mash { atStep .running 0 with zeroForced := true, refreshTimer := some 0 }

theorem witness_VesselTimersExpire :
    (resting.mode = .active ∧ heated .lauter = false
        ∧ (currentStep resting .lauter).map (fun st => (st.kind, st.hold)) = some (.hold, 2)
        ∧ resting.seqs.lauter.phase = .inEffect ∧ resting.seqs.lauter.state = .running
        ∧ ((later 2000 resting).loopTime - 0).toNat = 2000 ∧ ((later 1999 resting).loopTime - 0).toNat = 1999
        ∧ resting.seqs.lauter.holdElapsed = 0)
    ∧ (refreshing.mode = .active ∧ refreshing.tells = [] ∧ (vesselRow refreshing.tables .mash).refresh = 1000
        ∧ ((later 1000 refreshing).loopTime - 0).toNat = 1000 ∧ ((later 999 refreshing).loopTime - 0).toNat = 999
        ∧ heated .mash = true ∧ refreshing.seqs.mash.state = .running ∧ currentKind refreshing .mash = some .hold
        ∧ vesselValid refreshing.tables .mash = true ∧ (vesselRow refreshing.tables .mash).heat = some 12
        ∧ (point? refreshing.tables 12).isSome = true ∧ refreshing.seqs.mash.unsent = [] ∧ refreshing.loop.port ≠ .idle
        ∧ refreshing.loop.queue = [] ∧ refreshing.seqs.mash.zeroForced = false ∧ unrefreshed.seqs.mash.zeroForced = true
        ∧ currentKind unrefreshed .mash = some .hold ∧ ((later 1000 unrefreshed).loopTime - 0).toNat = 1000)
    ∧ (boilPending.mode = .active ∧ boilPending.tells = [] ∧ boilPending.boil.confirmTimer = some 0
        ∧ boilPending.boil.pending = some 1 ∧ boilPending.vessels.kettle.occupant = some 7
        ∧ ((later 120000 boilPending).loopTime - 0).toNat = 120000
        ∧ ((later 119999 boilPending).loopTime - 0).toNat < 120000) := by decide +kernel

/-- The mash's TRANSFER step waiting for the lauter tun, which is free or not. -/
def transferWaits : State := brewing .mash { atStep .blocked 2 with phase := .begun, blocked := some .destinationBusy }
def transferBarred : State := holding .lauter .resident (loaded .armed) transferWaits

theorem witness_BlockedTransferTakesEffect :
    transferWaits.mode = .active ∧ destinationOf .mash = some .lauter ∧ transferWaits.seqs.mash.state = .blocked
    ∧ (currentStep transferWaits .mash).map StepRow.kind = some .transfer
    ∧ transferWaits.vessels.mash.occupancy ≠ .draining ∧ transferWaits.vessels.lauter.occupancy = .empty
    ∧ vesselValid plant .lauter = true ∧ transferBarred.vessels.lauter.occupancy ≠ .empty
    ∧ transferBarred.seqs.mash.blocked = some .destinationBusy
    ∧ brew? transferWaits 7 = some (brewIn .mashing [.mash]) := by decide +kernel

theorem witness_HeatingLoopAndRamp :
    (0 ≤ (0 : Int) ∧ (1000000 : Int) ≤ 1000000) ∧ (100100 ≤ (400 : Int) * (7200 - 6900) ∧ (6900 : Int) < 7200)
    ∧ ((6500 : Int) < 6510 ∧ (rampMove (some 6500) 0 100 1000 6510 0).1 < 6510)
    ∧ ((6500 : Int) < 6510 ∧ 6500 < (rampMove (some 6510) 0 100 1000 6500 0).1) := by decide +kernel

/-- The mash RUNNING a step of a kind towards 65.00 with a hold, one second after its last sample. -/
def warming (kind hold : Int) (rest : Nat) (setpoint : Option Int) : State :=
  later 1000
    { brewing .mash { atStep .running 0 with dtBase := true, restClock := rest, setpoint := setpoint } with
      tables := { plant with step := rowsOf 128 10 [[kind, 6500, 100, 50, hold, 255, 0, 255, 0, 1]] } }

theorem warming_heats {kind hold : Int} {rest : Nat} {setpoint : Option Int}
    (h : let s := warming kind hold rest setpoint
      vesselValid s.tables .mash = true ∧ (vessels.filter fun v => vesselValid s.tables v && (vesselRow s.tables v).pv == 0) = [.mash]
        ∧ (vessels.filter fun v => vesselValid s.tables v && (vesselRow s.tables v).level == 0) = []
        ∧ (lineValid s.tables && ((0 == (lineRow s.tables).flow) || (0 == (lineRow s.tables).temperature)
          || (0 == (lineRow s.tables).gravity))) = false
        ∧ currentStep s .mash = some (stepRow s.tables 0)) :
    Heating .mash (stepRow (warming kind hold rest setpoint).tables 0) 0 (warming kind hold rest setpoint) :=
  ⟨rfl, ⟨show 0 < List.length base.points by decide +kernel, h.2.1, h.2.2.1, h.2.2.2.1⟩, rfl, h.2.2.2.2, rfl, rfl, nofun⟩

/-- A HOLD short of its time and at it, a RAMP off its tolerance and at its target, and the heat point (R85 to R87). -/
theorem witness_HeatingSamples :
    (Samples (sampleOf 20 0 1 [0x19, 0x64]) (item .short 6500) 0 6500 false (warming 0 2 999 none)
        ∧ Samples (sampleOf 20 0 1 [0x19, 0x64]) (item .short 6500) 0 6500 false (warming 0 2 1000 none)
        ∧ Samples (mashSample 0 0) (item .short 6800) 0 6800 false (warming 1 0 0 (some 6499))
        ∧ Samples (sampleOf 20 0 1 [0x19, 0x96]) (item .short 6550) 0 6550 false (warming 1 0 0 (some 6499)))
    ∧ (Heating .mash (stepRow (warming 0 2 999 none).tables 0) 0 (warming 0 2 999 none)
        ∧ Heating .mash (stepRow (warming 0 2 1000 none).tables 0) 0 (warming 0 2 1000 none)
        ∧ Heating .mash (stepRow (warming 1 0 0 (some 6499)).tables 0) 0 (warming 1 0 0 (some 6499)))
    ∧ (heatRow? plant .mash = some 12 ∧ (point? plant 12).isSome = true
        ∧ (stepRow (warming 0 2 999 none).tables 0).kind = .hold ∧ (stepRow (warming 0 2 999 none).tables 0).hold = 2
        ∧ (stepRow (warming 1 0 0 none).tables 0).kind = .ramp)
    ∧ (let s := warming 0 2 1000 none
       sampleTime s.seqs.mash (formerReading s 0) s.loopTime = 1000 ∧ s.seqs.mash.position = some 0
         ∧ s.seqs.mash.list = some 0 ∧ s.vessels.mash.occupant = some 7 ∧ (brew? s 7).map Brew.mash
           = some (some { steps := 0, rest := 0, deviation := 0 }))
    ∧ (rampMove (some 6499) 0 100 1000 6500 6800).1 = 6500 := by
  refine ⟨⟨samples_of (by decide +kernel), samples_of (by decide +kernel), samples_of (by decide +kernel),
    samples_of (by decide +kernel)⟩, ⟨warming_heats (by decide +kernel), warming_heats (by decide +kernel),
    warming_heats (by decide +kernel)⟩, by decide +kernel, by decide +kernel, by decide +kernel⟩

theorem witness_BoilSamplesWalkTheAdditions :
    (base.boil.begun = false ∧ (9799 : Int) < (recipeRow plant 0).threshold ∧ ((recipeRow plant 0).threshold : Int) ≤ 9800)
    ∧ (boilPending.boil.begun = true ∧ boilPending.boil.pending ≠ none ∧ base.boil.pending = none
        ∧ base.boil.cursor ≤ (recipeRow plant 0).addCount ∧ (recipeRow plant 0).addCount = 2)
    ∧ (let t := boilStages (brewIn .boiling [.kettle]) 9900 (some 9900) 1000
          { boilPending with boil := { boilPending.boil with pending := none, confirmTimer := none } }
       t.boil.pending = some 1 ∧ t.boil.cursor = 1)
    ∧ (let t := boilStages (brewIn .boiling [.kettle]) 9900 (some 9900) 999
          { base with boil := { BoilUnit.cleared with begun := true } }
       t.boil.pending = none ∧ t.boil.cursor < 2) := by decide +kernel

/-- Brew 7 boiling with a boil record, its start level known or not, and the recipe's entries not all reached. -/
def boilRecord (level : Option Nat) : BoilRecord :=
  { start := 0, clock := 600000, startLevel := level, endLevel := none, evaporation := none, levelMissing := level.isNone
    lowEvaporation := false, halted := false, fired := [], missed := [] }
def boilAt (level : Option Nat) : State :=
  { boilPending with
    brews := [some { brewIn .boiling [.kettle] with boil := some (boilRecord level) }, none, none, none, none, none]
    boil := { boilPending.boil with clock := 599000 } }

theorem witness_BoilCompletes :
    (occupantBrew? (boilAt none) .kettle = some { brewIn .boiling [.kettle] with boil := some (boilRecord none) }
        ∧ (recipeRow plant 0).target * 1000 = 600000
        ∧ (boilStages (brewIn .boiling [.kettle]) 9900 (some 9900) 1000 (boilAt none)).boil.clock = 600000
        ∧ (boilStages (brewIn .boiling [.kettle]) 9900 (some 9900) 999 (boilAt none)).boil.clock < 600000)
    ∧ (kettleLevel (boilAt (some 7000)) = some 6500 ∧ kettleLevel { boilAt none with points := List.replicate 128 .empty } = none
        ∧ (7000 - 6500) * 1000 / 7000 < (recipeRow plant 0).minEvap
        ∧ (recipeRow plant 0).minEvap ≤ (7300 - 6500) * 1000 / 7300) := by decide +kernel

/-- An addition to point 17 waiting in the send queue. -/
def sendEntry : SendEntry := { brew := 7, index := 0, point := 17, quantity := 50 }
def sends (l : List SendEntry) (s : State) : State := { s with boil := { BoilUnit.cleared with sendQueue := l } }

theorem witness_SendQueue :
    ((sends (List.replicate 63 sendEntry) base).boil.sendQueue.length < 64
        ∧ 64 ≤ (sends (List.replicate 64 sendEntry) base).boil.sendQueue.length
        ∧ (brewing .kettle (atStep .suspended 0)).seqs.kettle.state = .suspended)
    ∧ (let s := sends [sendEntry] boilPending
       s.seqs.kettle.state ≠ .suspended ∧ s.boil.outstanding = false ∧ s.boil.sendQueue = sendEntry :: []
         ∧ (brew? s 7).isSome = true ∧ point? plant 17 = some (pointRow plant 17) ∧ (pointRow plant 17).kind = .additionDrive
         ∧ (pointRow plant 14).kind ≠ .additionDrive ∧ brew? s 8 = none)
    ∧ (let drive := driveFrame base (pointRow plant 17) 50
       (offer drive .boilUnit base).1 = .begun ∧ (offer drive .boilUnit (busyPort base)).1 = .queued
         ∧ (offer drive .boilUnit (queueOf (List.replicate 32 queuedReply))).1 = .refused) := by decide +kernel

/-! #### The cast, duty and the journal -/

/-- The whirlpool's CAST step blocked by a refused open attempt. -/
def castWaits (s : State) : State :=
  holding .whirlpool .resident { atStep .blocked 0 with blocked := some (.castRefused .orphans) }
    (withBrew .whirlpool [.whirlpool] s)

theorem witness_CastOpenRetries :
    ((castWaits base).mode = .active ∧ (castWaits base).tells = [] ∧ (castWaits base).seqs.whirlpool.state = .blocked
        ∧ (currentStep (castWaits base) .whirlpool).map StepRow.kind = some .cast
        ∧ (castWaits base).vessels.whirlpool.occupant = some 7
        ∧ brew? (castWaits base) 7 = some (brewIn .whirlpool [.whirlpool]) ∧ (castWaits base).castMeter.record = none)
    ∧ (openRefusal (castWaits base) = none ∧ freeRoom base.journal = 4096)
    ∧ ([(castWaits State.reset, OpenRefusal.journalNotReady),
        (castWaits { base with pins := { base.pins with protect := true } }, .journalProtected),
        (castWaits { base with journal := { base.journal with failed := true } }, .journalFailed),
        (castWaits { base with journal := { base.journal with reservations := 4095 } }, .journalFull),
        (castWaits { base with journal := { base.journal with queue := List.replicate 4 (openDraft false) } }, .journalBusy),
        (castWaits { base with journal := { base.journal with orphans := [{ cast := 1, brew := 7, fermenter := 3, tariffSeq := 5 }] } }, .orphans),
        (castWaits { base with duty := .cleared }, .noTariff),
        (castWaits { base with tables := { plant with line := Tables.zero.line } }, .lineInvalid),
        (castWaits { base with points := List.replicate 128 .empty }, .noLineValue)].all fun p =>
          openRefusal p.1 == some p.2) := by decide +kernel

theorem witness_FlowSamplesAreMetered :
    ((31 : Nat) ≤ 31 ∧ (3100 : Int) = 100 * (31 : Nat) ∧ (0 : Int) ≤ 0 ∧ (3100 : Int) ≤ 3100)
    ∧ (casting (some (castIn .metering false))).castMeter.record = some (castIn .metering false)
    ∧ ((castIn .opening false).state = .opening ∧ (castIn .paused false).lastCount = some 100
        ∧ ({ castIn .settling false with lastCount := none } : Cast).lastCount = none)
    ∧ ((20100#32 - 100#32).toNat = 20000 ∧ (lineRow plant).maxPulses = 20000 ∧ 20000 < (20101#32 - 100#32).toNat)
    ∧ 1000000 * (castIn .metering false).v20 + (castIn .metering false).r + 20000 * (lineRow plant).k * 1000000
        < 1000000 * 2 ^ 64
    ∧ (castIn .metering false).gv + 40000 * (20000 * 10000) < 2 ^ 64 := by decide +kernel

/-- A count of the line's flow point 20,000 pulses on, and one pulse more, for a cast in each state. -/
theorem witness_FlowSampleFrames :
    (let i (x : Int) := item .count x
     let f (low : Byte) := sampleOf 40 0 3 [0, 0, 0x4E, low]
     [CastState.metering, .paused, .opening].all (fun st =>
        samplesOk (f 0x84) (i 20100) 18 20100 (casting (some (castIn st false)))
          && samplesOk (f 0x85) (i 20101) 18 20101 (casting (some (castIn st false)))) = true)
    ∧ DeliversTo (casting (some (castIn .metering false))) 18 [] [] true
    ∧ ((lineRow plant).flow = 18 ∧ (lineRow plant).temperature ≠ 18 ∧ (lineRow plant).gravity ≠ 18
        ∧ (20100#32) = BitVec.ofInt 32 20100 ∧ (castIn .metering false).pitch.isSome = true)
    ∧ targetStrokes (strainOf plant 1) 750 ((castIn .metering false).gv + 40000 * (20000 * 10000)) < 2 ^ 64 := by
  refine ⟨by decide +kernel, ?_, by decide +kernel, by decide +kernel⟩
  constructor <;> decide +kernel

theorem witness_SettleTimerExpires :
    (casting (some (castIn .settling true))).mode = .active ∧ (casting (some (castIn .settling true))).tells = []
    ∧ (castIn .settling true).settleTimer = some 0 ∧ (lineRow plant).settle = 2000
    ∧ ((later 2000 base).loopTime - 0).toNat = 2000 ∧ ((later 1999 base).loopTime - 0).toNat < 2000
    ∧ (castIn .settling true).pitch.map PitchPart.outstanding = some true
    ∧ (castIn .settling false).pitch.map PitchPart.outstanding = some false
    ∧ (casting none).journal.queue.length < 4
    ∧ 4 ≤ ({ casting none with journal := { base.journal with queue := List.replicate 4 (openDraft false) } } : State).journal.queue.length := by
  decide +kernel

theorem witness_StrokeTimerExpires :
    (casting (some (castIn .metering true))).tells = [] ∧ (castIn .metering true).state = .metering
    ∧ (castIn .metering true).pitch.map (fun p => (p.outstanding, p.strokeTimer, p.consecutive, p.unconfirmed))
        = some (true, some 0, 0, 0)
    ∧ (lineRow plant).strokeTimeout = 1000 ∧ (lineRow plant).failureLimit = 3
    ∧ ((later 1000 base).loopTime - 0).toNat = 1000 ∧ ((later 999 base).loopTime - 0).toNat < 1000 := by decide +kernel

/-- The lag at its limit and above, at half of it and above; the dose DRIVE taken, queued and refused; and what bars a
stroke. -/
theorem witness_StrokesAndLag :
    (0 < (strainOf plant 1).concentration ∧ 0 < (strainOf plant 1).viability ∧ 0 < (strainOf plant 1).stroke)
    ∧ (let p (target : Nat) (lag : Bool) : Option PitchPart :=
        (castIn .metering false).pitch.map fun p => { p with target := target, pitchLag := lag }
       ((p 6 false).map fun p => p.target - (p.confirmed + p.unconfirmed)) = some 6 ∧ (p 7 false).isSome = true
         ∧ (p 3 true).map PitchPart.pitchLag = some true ∧ (p 4 true).isSome = true ∧ (strainOf plant 1).lagLimit = 6)
    ∧ (let c := castIn .metering false
       let s := casting (some c)
       let drive : Frame := { kind := 0x02, dest := BitVec.ofNat 8 41, source := s.stationAddress, hop := 0, tag := 0
                              payload := num 1 0 ++ num 1 0 ++ num 2 1000, check := 0 }
       c.settleOver = false ∧ c.pitch.map (fun p => (p.outstanding, p.issued, p.target, p.dosingFailed, p.frameQueued))
           = some (false, 1, 3, false, false)
         ∧ s.vessels.whirlpool.authority = .auto
         ∧ (point? plant (lineRow plant).dose).map (fun d => (d.station, d.channel)) = some (41, 0)
         ∧ (offer drive (.pitchUnit c.number) s).1 = .begun ∧ (offer drive (.pitchUnit c.number) (busyPort s)).1 = .queued
         ∧ (offer drive (.pitchUnit c.number) (fullQueue s)).1 = .refused
         ∧ (fullQueue s).loop.queue.all fun q => q.owner == .agent)
    ∧ (castIn .metering true).pitch.map PitchPart.outstanding = some true
    ∧ (castIn .charging false).state = .charging := by decide +kernel

theorem witness_CastEndRequests :
    (Asked .castEnd base ∧ base.castMeter.record = none)
    ∧ Asked .castEnd (casting (some (castIn .settling false))) ∧ Asked .castEnd (casting (some (castIn .charging false)))
    ∧ Asked .castEnd (casting (some (castIn .opening false))) ∧ Asked .castEnd (casting (some (castIn .metering false)))
    ∧ (castIn .metering false).endCause = none ∧ Asked .castEnd (casting (some (castIn .paused false))) := by
  refine ⟨⟨asks_of (by decide +kernel), rfl⟩, asks_of (by decide +kernel), asks_of (by decide +kernel),
    asks_of (by decide +kernel), asks_of (by decide +kernel), rfl, asks_of (by decide +kernel)⟩

/-- A closing cast with its duty part. -/
def charged : Cast :=
  { castIn .charging false with duty := some (computeDuty tariff 5 .metered 5000 12000 0) }

/-- Its CAST_CLOSE record, kept. -/
def closeDraft : Draft := { body := .castClose charged, brew := 7, period := 1, skip := 0, placed := false }
def kept (queue : List Draft) : State :=
  { casting (some charged) with
    castMeter := { record := some charged, pumpUnsent := none, keptClose := some closeDraft }
    journal := { base.journal with queue := queue } }

/-- A part with a valid bank and no tariff. -/
def bankLoaded : State :=
  { base with tables := { plant with tariff := rowsOf 13 5 [[15000, 1, 1, 0, 1], [40000, 300, 0, 0, 0]] }, duty := .cleared }

theorem witness_KeptRecordsAreOfferedAgain :
    ((kept []).mode = .active ∧ (kept []).tells = [] ∧ (kept []).castMeter.keptClose = some closeDraft
        ∧ charged.duty.isSome = true ∧ (kept []).journal.queue.length < 4
        ∧ 4 ≤ (kept (List.replicate 4 (openDraft false))).journal.queue.length)
    ∧ (bankLoaded.duty.tariff = .none ∧ bankLoaded.journal.mount = .ready ∧ bankValid bankLoaded.tables = true
        ∧ bankLoaded.journal.queue.length < 4 ∧ 1 ≤ freeRoom bankLoaded.journal ∧ base.duty.tariff ≠ .none) := by
  decide +kernel

theorem witness_ChargesAreComputed :
    tariff.bands.take tariff.bandCount ≠ [] ∧ tariff.tiers.take tariff.tierCount ≠ []
    ∧ ((tariff.tiers.take tariff.tierCount).dropLast.Pairwise fun x y => x.1 ≤ y.1) ∧ tariff.allowance ≤ 100000
    ∧ (12101 ≤ 14000 ∧ 10000 < 12101) ∧ 40000 * 1 ≤ 40000 * 1
    ∧ (let cdl := (computeDuty tariff 5120 .metered 4812500 12101 1980000).cdl
       max 1980000 0 < min 2000000 (1980000 + cdl) ∧ max 1980000 2000000 < min 6000000 (1980000 + cdl)
         ∧ 1980000 + cdl ≤ max 1980000 6000000 ∧ min 2000000 (2000000 + cdl) ≤ max 2000000 0) := by decide +kernel

/-- One orphan, and all that a settlement needs. -/
def orphaned : State :=
  { base with journal := { base.journal with orphans := [{ cast := 2210, brew := 7, fermenter := 3, tariffSeq := 5 }] } }

theorem witness_CastSettleRequests :
    Asked (.castSettle 2210 0 40000) orphaned ∧ Asked (.castSettle 2210 0 0) State.reset ∧ Asked (.castSettle 2211 0 0) orphaned
    ∧ (orphaned.journal.mount = .ready ∧ orphaned.duty.charges = [] ∧ orphaned.duty.tariff = .active
        ∧ 1 ≤ freeRoom orphaned.journal ∧ orphaned.journal.queue.length < 4) := by
  refine ⟨asks_of (by decide +kernel), asks_of (by decide +kernel), asks_of (by decide +kernel), by decide +kernel⟩

/-- A part ready to close a period, with a valid bank beside the active tariff. -/
def closing : State := { base with tables := bankLoaded.tables }

theorem witness_PeriodCloseRequests :
    Asked (.periodClose false) State.reset ∧ Asked (.periodClose true) base ∧ Asked (.periodClose true) closing
    ∧ Asked (.periodClose true) orphaned
    ∧ (bankValid base.tables = false ∧ bankValid closing.tables = true ∧ closing.duty.tariff = .active
        ∧ base.castMeter.record = none ∧ base.journal.queue = [] ∧ base.duty.charges = [] ∧ base.journal.orphans = []
        ∧ 2 ≤ freeRoom base.journal) := by
  refine ⟨asks_of (by decide +kernel), asks_of (by decide +kernel), asks_of (by decide +kernel), asks_of (by decide +kernel),
    by decide +kernel⟩

/-- One record waiting in the write queue. -/
def oneRecord : State := { base with journal := { base.journal with queue := [openDraft false], reservations := 1 } }

theorem witness_WritesGoThroughTheirStages :
    (base.mode = .active ∧ base.tells = [] ∧ base.journal.queue = [])
    ∧ (oneRecord.pins.protect = false ∧ oneRecord.pins.powerFail = false ∧ oneRecord.journal.op = .free
        ∧ oneRecord.journal.mount = .ready ∧ oneRecord.journal.failed = false
        ∧ oneRecord.journal.queue = openDraft false :: [] ∧ (openDraft false).body.isRelease = false)
    ∧ ((writing .erasing (openDraft true) base).journal.op = .erasing
        ∧ (writing .programming (openDraft true) base).journal.op = .programming
        ∧ (writing .verifying (openDraft true) base).journal.op = .verifying
        ∧ (writing .verifying (openDraft true) base).journal.queue = openDraft true :: [])
    ∧ (readBlock 0 (.bytes []) base.store).1 ≠ blockBytes 0 (openDraft true)
    ∧ ((writing .verifying (openDraft true) base).journal.consecutive + 1 < 3
        ∧ freeRoom (writing .verifying (openDraft true) base).journal ≠ 0)
    ∧ 3 ≤ ({ base.journal with consecutive := 2 } : Journal).consecutive + 1 := by decide +kernel

/-- A write whose read-back will match. -/
def verifying (d : Draft) (s : State) : State := writing .verifying { d with placed := true } s

theorem witness_CompletedRecordsTakeEffect :
    (readBlock 0 (.bytes (blockBytes 0 (openDraft true))) base.store).1 = blockBytes 0 (openDraft true)
    ∧ ((verifying tariffDraft base).journal.op = .verifying ∧ (verifying tariffDraft base).journal.head - 1 = 0)
    ∧ ((verifying (openDraft true) (casting (some (castIn .opening false)))).castMeter.record = some (castIn .opening false)
        ∧ (castIn .opening false).flags.interrupted = false ∧ (castIn .opening false).endCause = none
        ∧ ({ castIn .opening false with endCause := some .request } : Cast).endCause ≠ none)
    ∧ ((verifying closeDraft (kept [])).castMeter.record = some charged
        ∧ ({ (kept []).duty with charges := [{ cast := 1, dl := 60, cdl := 60, d := 20 }] } : Duty).charges ≠ []
        ∧ brew? (kept []) 7 = some (brewIn .casting [.whirlpool])) := by decide +kernel

/-- A journal with a closed period at 3 and its head at 11, a read waiting for it. -/
def journalled : State :=
  { base with journal := { base.journal with
      head := 11, tail := 0, lastClose := some { seq := 3, period := 1, ytd := 50000, yearEnd := false } } }
def readWaits (count : Nat) : State :=
  { journalled with
    journal := { journalled.journal with
      op := .reading, reads := [{ seq := 0, count := count, page := 0, done := 0, entries := [] }] }
    agent := { base.agent with deferred := [{ source := 9, tag := 3, code := 27 }] } }

theorem witness_JournalReadRequests :
    Asked (.journalRead 0 4 0) State.reset ∧ Asked (.journalRead 8 4 0) journalled ∧ Asked (.journalRead 7 4 255) journalled
    ∧ (isUnreleased journalled.journal 10 = true ∧ isUnreleased journalled.journal 11 = false)
    ∧ ((readWaits 1).mode = .active ∧ (readWaits 1).tells = [] ∧ (readWaits 1).journal.op = .reading
        ∧ (readWaits 1).agent.deferred.find? (fun r => r.code == 27) = some { source := 9, tag := 3, code := 27 }
        ∧ (readWaits 1).loop.transit = [] ∧ (readWaits 1).loop.queue = []
        ∧ (readWaits 2).journal.reads.map ReadJob.count = [2]) := by
  refine ⟨asks_of (by decide +kernel), asks_of (by decide +kernel), asks_of (by decide +kernel), by decide +kernel⟩

/-- A mount at its last block with one good record, and one before it. -/
def mountingAt (block : Nat) (good : List Record) : State :=
  { State.reset with journal := { State.reset.journal with mountBlock := block, mountGood := good } }
def tariffRecord : Record := { seq := 0, skip := 0, brew := 0, period := 1, body := .tariff tariff }
def releaseBody : ReleaseBody :=
  { releasedTo := 2, close := { seq := 1, period := 1, ytd := 0, yearEnd := false }, castCount := 0, tariffSeq := none
    tariff := TariffImage.zero }
def releaseRecord : Record := { seq := 5, skip := 0, brew := 0, period := 2, body := .release releaseBody }

theorem witness_MountReadsEveryBlock :
    (State.reset.mode = .active ∧ State.reset.tells = [] ∧ State.reset.journal.mount = .mounting
        ∧ State.reset.journal.mountBlock < 4095 ∧ 4095 ≤ (mountingAt 4095 [tariffRecord]).journal.mountBlock)
    ∧ (tariffRecord.release? = none ∧ releaseRecord.release? = some releaseBody
        ∧ laterSeq releaseRecord.seq tariffRecord.seq = true) := by decide +kernel

/-- A PERIOD_CLOSE and a CAST_OPEN record. -/
def periodRecord (seq : Seq) : Record :=
  { seq := seq, skip := 0, brew := 0, period := 1
    body := .periodClose { period := 1, casts := 0, dl := 0, cdl := 0, duty := 0, ytd := 0, yearEnd := false, castCount := 0 } }
def openRecord (seq : Seq) (cast : Nat) : Record :=
  { seq := seq, skip := 0, brew := 7, period := 1
    body := .castOpen { cast := cast, fermenter := 3, opened := 0, tariffSeq := 0, strain := 1, rate := 750, gravity := .pause
                        lag := .pause } }

/-- With no RELEASE; with one later than every PERIOD_CLOSE read; and with one before the last PERIOD_CLOSE. -/
def goodNone : List Record := [tariffRecord, periodRecord 1, openRecord 2 1, openRecord 3 2]
def goodLater : List Record := goodNone ++ [releaseRecord]
def goodBefore : List Record := goodLater ++ [periodRecord 6]

theorem latest_release {good : List Record} (m : releaseRecord ∈ good)
    (h : ∀ q ∈ good, q ≠ releaseRecord → q.release? = none) : LatestRelease good releaseRecord releaseBody :=
  ⟨m, rfl, fun q hq hn hr => absurd (h q hq hn) hr⟩

theorem lastOf_of {good : List Record} {p : Record → Prop} {f : Record → Bool} {r : Record} (hf : ∀ q, p q → f q = true)
    (m : r ∈ (mountPositions good).records) (h : p r)
    (l : ∀ q ∈ (mountPositions good).records, f q = true → q ≠ r →
      (q.seq - (mountPositions good).tail).toNat < (r.seq - (mountPositions good).tail).toNat) :
    LastOf (mountPositions good).tail p (mountPositions good).records r :=
  ⟨m, h, fun q hq hp hn => l q hq (hf q hp) hn⟩

theorem witness_MountRecords :
    (LastOf (mountPositions goodNone).tail (fun r => ∃ b, r.body = .periodClose b) (mountPositions goodNone).records (periodRecord 1)
        ∧ (∀ r ∈ goodNone, r.release? = none)
        ∧ LastOf (mountPositions goodNone).tail (fun q => ∃ i, q.body = .tariff i) (mountPositions goodNone).records tariffRecord)
    ∧ (LatestRelease goodLater releaseRecord releaseBody
        ∧ (∀ r ∈ (mountPositions goodLater).records, r.periodClose? = none ∧ r.tariff? = none)
        ∧ (mountPositions goodLater).records = [openRecord 2 1, openRecord 3 2, releaseRecord])
    ∧ (LatestRelease goodBefore releaseRecord releaseBody
        ∧ LastOf (mountPositions goodBefore).tail (fun r => ∃ b, r.body = .periodClose b) (mountPositions goodBefore).records
          (periodRecord 6)
        ∧ laterSeq releaseRecord.seq (periodRecord 6).seq = false)
    ∧ ((mountPositions goodBefore).castCount = 2 ∧ goodBefore.Pairwise (fun a b => a.seq ≠ b.seq)
        ∧ ((mountPositions goodBefore).head - (mountPositions goodBefore).tail).toNat = 5
        ∧ (mountPositions goodBefore).orphans.length = 2
        ∧ blockOf 4 = 4 ∧ ((4 : Seq) - (mountPositions goodBefore).tail).toNat = 2) := by
  refine ⟨⟨lastOf_of (f := fun q => q.periodClose?.isSome) ?_ (by decide +kernel) ⟨_, rfl⟩ (by decide +kernel), by decide +kernel,
      lastOf_of (f := fun q => q.tariff?.isSome) ?_ (by decide +kernel) ⟨_, rfl⟩ (by decide +kernel)⟩,
    ⟨latest_release (by decide +kernel) (by decide +kernel), by decide +kernel, by decide +kernel⟩,
    ⟨latest_release (by decide +kernel) (by decide +kernel),
      lastOf_of (f := fun q => q.periodClose?.isSome) ?_ (by decide +kernel) ⟨_, rfl⟩ (by decide +kernel), by decide +kernel⟩,
    by decide +kernel⟩
  · rintro q ⟨b, e⟩; unfold Record.periodClose?; rw [e]; rfl
  · rintro q ⟨b, e⟩; unfold Record.tariff?; rw [e]; rfl
  · rintro q ⟨b, e⟩; unfold Record.periodClose?; rw [e]; rfl

/-- The failed journal with its head record placed. -/
def failedJournal : State :=
  { journalled with journal := { journalled.journal with failed := true, consecutive := 3, queue := [openDraft true] } }

theorem witness_JournalReleaseAndRetryRequests :
    (Asked (.journalRelease 4) State.reset ∧ Asked (.journalRelease 5) journalled ∧ Asked (.journalRelease 4) journalled
        ∧ Asked (.journalRelease 4) orphaned)
    ∧ (laterSeq 4 journalled.journal.tail = true ∧ laterSeq 4 (3 + 1) = false ∧ laterSeq 5 (3 + 1) = true
        ∧ journalled.journal.queue = [] ∧ journalled.journal.unlisted = 0 ∧ 1 ≤ freeRoom journalled.journal)
    ∧ (Asked .journalRetry State.reset ∧ Asked .journalRetry base ∧ Asked .journalRetry failedJournal
        ∧ Asked .journalRetry { failedJournal with pins := { base.pins with protect := true } })
    ∧ (failedJournal.journal.failed = true ∧ failedJournal.pins.protect = false ∧ failedJournal.pins.powerFail = false
        ∧ failedJournal.journal.op = .free ∧ (openDraft true).placed = true ∧ freeRoom failedJournal.journal ≠ 0
        ∧ freeRoom { failedJournal.journal with reservations := 4096 } = 0) := by
  refine ⟨⟨asks_of (by decide +kernel), asks_of (by decide +kernel), asks_of (by decide +kernel), asks_of (by decide +kernel)⟩,
    by decide +kernel, ⟨asks_of (by decide +kernel), asks_of (by decide +kernel), asks_of (by decide +kernel),
    asks_of (by decide +kernel)⟩, by decide +kernel⟩

/-! #### The Management Agent -/

theorem witness_StatusAndConditionRequests :
    Safe base ∧ (∀ k, k ∈ base.agent.conditions ↔ condCause base k = true)
    ∧ (Asked (.statusRead 0) base ∧ Asked (.statusRead 255) base ∧ base.loop.queue.length < 32)
    ∧ (Asked (.clearConditions [.frameErrors]) base ∧ Asked (.clearConditions []) base)
    ∧ (base.agent.config.supervisor = 0 ∧ Cond.linkDown ∉ base.agent.acked ∧ Cond.linkDown ∉ base.agent.reported
        ∧ ({ supervisor := 9, fairness := 20, interval := 50 } : PartConfig).supervisor ≠ 0) := by
  refine ⟨base_safe, base_conditions, ⟨asks_of (by decide +kernel), asks_of (by decide +kernel), by decide +kernel⟩,
    ⟨asks_of (by decide +kernel), asks_of (by decide +kernel)⟩, by decide +kernel⟩

/-- A window of one row of the Strain Table, and a part with it. -/
def window (fieldMajor : Bool) : Window :=
  { table := 7, firstRow := 1, lastRow := 11, firstField := 0, lastField := 5, fieldMajor := fieldMajor }
def windowed (kept : Option Kept) : State :=
  { base with agent := { base.agent with
      window := some (window false), writePtr := ⟨1, 0⟩, readPtr := ⟨1, 0⟩, keptWrite := kept, keptRead := kept } }
def keptOf (rq : Request) : Kept := { request := rq, result := .ok, data := [] }

theorem witness_TableWindowRequests :
    ((window false).ok = true ∧ (window true).ok = true)
    ∧ Asked (.tableWindow (window true)) base
    ∧ Asked (.partConfig { supervisor := 254, fairness := 1, interval := 10 }) base
    ∧ (Asked (.tableRead 1) base ∧ base.agent.window = none)
    ∧ (Asked (.tableRead 24) (windowed (some (keptOf (ask (.tableRead 24)))))
        ∧ (windowed (some (keptOf (ask (.tableRead 24))))).agent.keptRead.map Kept.request = some (ask (.tableRead 24)))
    ∧ (Asked (.tableRead 24) (windowed none) ∧ (windowed none).agent.window = some (window false)
        ∧ (windowed none).agent.keptRead = none) := by
  refine ⟨by decide +kernel, asks_of (by decide +kernel), asks_of (by decide +kernel), ⟨asks_of (by decide +kernel), by decide +kernel⟩,
    ⟨asks_of (by decide +kernel), by decide +kernel⟩, asks_of (by decide +kernel), by decide +kernel⟩

/-- The cases of a write of one cell, each at a pointer of some table: read only, in use, out of range, a VALID whose
row fails its checks, and a cell that is written. -/
theorem witness_TableWriteRequests :
    (Asked (.tableWrite [1]) base ∧ base.agent.window = none)
    ∧ Asked (.tableWrite [1]) (windowed (some (keptOf (ask (.tableWrite [1])))))
    ∧ (Asked (.tableWrite [900]) (windowed none) ∧ (windowed none).agent.keptWrite = none
        ∧ rowInUse (windowed none) 7 1 = false ∧ inRange 7 1 0 900 = true ∧ inRange 7 1 0 (BitVec.ofNat 32 4294967295) = false
        ∧ validField 7 = 5 ∧ rowChecks (windowed none) 7 1 = false
        ∧ rowInUse (brewing .mash (atStep .running 0)) 1 0 = true)
    ∧ ((base.tables.get 7).length = tableRows 7 ∧ (∀ r ∈ base.tables.get 7, r.length = tableFields 7)
        ∧ readCell base 7 1 (validField 7) = 0 ∧ readCell base 7 0 (validField 7) = 1)
    ∧ (writeCell 7 1 0 (BitVec.ofNat 32 4294967295) (windowed none)).1 = some .range := by
  refine ⟨⟨asks_of (by decide +kernel), by decide +kernel⟩, asks_of (by decide +kernel), ⟨asks_of (by decide +kernel), by decide +kernel⟩,
    by decide +kernel⟩

theorem witness_ResetAndRefusedRequests :
    (Asked (.reset false) (casting (some (castIn .opening false))) ∧ Asked (.reset false) (writing .erasing (openDraft true) base)
        ∧ Asked (.reset false) base ∧ base.castMeter.record = none ∧ base.journal.op = .free)
    ∧ (Asked (.reset true) (casting (some (castIn .metering false))) ∧ Asked (.reset true) (casting (some (castIn .charging false)))
        ∧ (casting none).castMeter.record = none ∧ brew? (casting none) 7 = some (brewIn .casting [.whirlpool]))
    ∧ (Takes { source := 9, tag := 3, payload := [1] } base ∧ Takes { source := 9, tag := 3, payload := [29, 0] } base
        ∧ parseReq base.stationAddress 1 [] = none ∧ parseReq base.stationAddress 29 [0] = none)
    ∧ (Takes { source := 9, tag := 3, payload := [0] } base ∧ Takes { source := 9, tag := 3, payload := [30] } base
        ∧ Takes { source := 9, tag := 3, payload := [] } base) := by
  refine ⟨⟨asks_of (by decide +kernel), asks_of (by decide +kernel), asks_of (by decide +kernel), rfl, rfl⟩,
    ⟨asks_of (by decide +kernel), asks_of (by decide +kernel), rfl, by decide +kernel⟩,
    ⟨takes_of (by decide +kernel), takes_of (by decide +kernel), by decide +kernel⟩,
    takes_of (by decide +kernel), takes_of (by decide +kernel), takes_of (by decide +kernel)⟩

/-- A part with a supervisor, events and conditions, on a busy port. -/
def reporting (events queue : Nat) (conditions : List Cond) : State :=
  { busyPort base with
    loop := { (busyPort base).loop with queue := List.replicate queue queuedReply }
    agent := { base.agent with
      events := List.replicate events { time := 0, kind := .brewState, subject := .none, brew := none, arg := .num 0 }
      conditions := conditions, shedding := decide (48 ≤ events), config := { supervisor := 9, fairness := 20, interval := 50 } } }

theorem witness_EventsAreQueuedAndReported :
    ((reporting 63 0 []).agent.events.length < 64 ∧ isAlarm .panelRefused = true ∧ isAlarm .brewState = false
        ∧ (reporting 63 0 []).agent.shedding = true ∧ 64 ≤ (reporting 64 0 []).agent.events.length
        ∧ (reporting 47 0 []).agent.shedding = false)
    ∧ (base.mode = .active ∧ base.tells = [] ∧ (reporting 1 0 []).loop.port ≠ .idle ∧ base.agent.reportTimer = some 0
        ∧ base.agent.reportLimit = 50 ∧ ((later 50 base).loopTime - 0).toNat = 50 ∧ ((later 49 base).loopTime - 0).toNat < 50)
    ∧ (base.agent.config.supervisor = 0 ∧ 32 ≤ (reporting 1 32 []).loop.queue.length ∧ (reporting 0 0 []).agent.events = []
        ∧ (reporting 0 0 []).agent.conditions = [])
    ∧ ((reporting 7 31 [.linkDown]).agent.conditions = [.linkDown] ∧ (reporting 7 31 [.linkDown]).agent.acked = []
        ∧ (reporting 7 31 [.linkDown]).loop.queue.length = 31 ∧ (reporting 7 30 [.linkDown]).loop.queue.length < 31
        ∧ (reporting 7 31 []).agent.events ≠ []) := by decide +kernel

end Sys2Proof.Tests
end

section
/-! The commands' laws: what each command can do, said once (`command_effect`), and what follows for every step: the
state stays safe, only the resets, the pins' commands and the store's commands change what they alone may change, and
in BYPASS mode nothing happens but the repeat of characters. -/

namespace Sys2Proof.Machine

/-! ### What the body of a command keeps -/

/-- A body of a command that keeps the fixed parts and the store, and every room. -/
structure Keeps (f : State → State) : Prop where
  kept : ∀ s, (f s).kept = s.kept
  cap  : ∀ s, Capacity s → Capacity (f s)

/-- A body of a command that keeps the fixed parts, the canonical form of the store, and every room. -/
structure KeepsFixed (f : State → State) : Prop where
  fixed : ∀ s, (f s).fixed = s.fixed
  wf    : ∀ s, storeWf s.store = true → storeWf (f s).store = true
  cap   : ∀ s, Capacity s → Capacity (f s)

theorem whenActive_fixed {f : State → State} (h : ∀ s, (f s).fixed = s.fixed) (s : State) :
    (whenActive f s).fixed = s.fixed := by
  unfold whenActive
  split
  · rw [fixed_of_kept (settle_kept _), h]
  · rfl

theorem whenActive_inactive (f : State → State) {s : State} (h : s.mode ≠ .active) : whenActive f s = s := if_neg h

theorem onRequest_inactive (q : Queued) (f : State → State) {s : State} (h : s.mode ≠ .active) :
    onRequest q f s = s := if_neg h

theorem settle_store (s : State) : (settle s).store = s.store := store_of_kept (settle_kept s)

/-- The end of a command leaves a safe state behind a state in its room with a canonical store. -/
theorem settle_safe {s : State} (hc : Capacity s) (hw : storeWf s.store = true) : Safe (settle s) :=
  ⟨settle_cap hc, by rw [settle_store]; exact hw, settle_tells s⟩

theorem whenActive_safe {f : State → State} (hc : ∀ s, Capacity s → Capacity (f s))
    (hw : ∀ s, storeWf s.store = true → storeWf (f s).store = true) {s : State} (h : Safe s) :
    Safe (whenActive f s) := by
  unfold whenActive
  split
  · exact settle_safe (hc s h.capacity) (hw s h.store)
  · exact h

theorem onRequest_wf {f : State → State} (q : Queued)
    (hw : ∀ s, storeWf s.store = true → storeWf (f s).store = true) {s : State} (h : storeWf s.store = true) :
    storeWf (onRequest q f s).store = true := by
  unfold onRequest
  split
  · rw [settle_store]
    split
    · exact hw s h
    · split
      · exact hw _ h
      · rw [store_of_kept (queueRequest_kept q s)]; exact h
  · exact h

theorem onRequest_tells (q : Queued) (f : State → State) {s : State} (h : s.tells = []) :
    (onRequest q f s).tells = [] := by
  unfold onRequest
  split
  · exact settle_tells _
  · exact h

theorem onRequest_safe {f : State → State} (q : Queued) (hc : ∀ s, Capacity s → Capacity (f s))
    (hw : ∀ s, storeWf s.store = true → storeWf (f s).store = true) {s : State} (h : Safe s) :
    Safe (onRequest q f s) :=
  ⟨onRequest_cap q f hc h.capacity, onRequest_wf q hw h.store, onRequest_tells q f h.tells⟩

theorem Keeps.wf {f : State → State} (h : Keeps f) (s : State) (hw : storeWf s.store = true) :
    storeWf (f s).store = true := by
  rw [store_of_kept (h.kept s)]; exact hw

/-! ### The services of the requests -/

/-- The service of each request command but RESET (R170). -/
def serviceOf : Instr → Option (State → State)
  | .statusRead r => some (serveStatusRead r)
  | .clearConditions r => some (serveClearConditions r)
  | .tableWindow r => some (serveTableWindow r)
  | .tableWrite r => some (serveTableWrite r)
  | .tableRead r => some (serveTableRead r)
  | .partConfig r => some (servePartConfig r)
  | .brewOpen r => some (serveBrewOpen r)
  | .brewAssign r => some (serveBrewAssign r)
  | .brewAbandon r => some (serveBrewAbandon r)
  | .brewRelease r => some (serveBrewRelease r)
  | .brewRead r => some (serveBrewRead r)
  | .vesselClear r => some (serveVesselClear r)
  | .vesselStart r => some (serveVesselStart r)
  | .groupStart r => some (serveGroupStart r)
  | .vesselHalt r => some (serveVesselHalt r)
  | .continueStep r => some (serveContinueStep r)
  | .authority r => some (serveAuthority r)
  | .lock r => some (serveLock r)
  | .release r => some (serveRelease r)
  | .discard r => some (serveDiscard r)
  | .castEnd r => some (serveCastEnd r)
  | .castRead r => some (serveCastRead r)
  | .castSettle r => some (serveCastSettle r)
  | .periodClose r => some (servePeriodClose r)
  | .dutyRead r => some (serveDutyRead r)
  | .journalRead r => some (serveJournalRead r)
  | .journalRelease r => some (serveJournalRelease r)
  | .journalRetry r => some (serveJournalRetry r)
  | _ => none

/-- The command of a service is taken through the request queue (R170). -/
theorem exec_serviceOf {i : Instr} {f : State → State} (h : serviceOf i = some f) :
    ∃ q, ∀ s, exec i s = .next (onRequest q f s) := by
  cases i <;> cases h <;> exact ⟨_, fun _ => rfl⟩

/-- A service answers BAD_REQUEST or does what its rule states: either keeps the fixed parts, the store and the
rooms. -/
theorem serviceOf_keeps {i : Instr} {f : State → State} (h : serviceOf i = some f) : Keeps f := by
  cases i <;> cases h
  all_goals
    refine ⟨fun s => ?_, fun s hs => ?_⟩ <;>
    dsimp only [serveStatusRead, serveClearConditions, serveTableWindow, serveTableWrite, serveTableRead,
      servePartConfig, serveBrewOpen, serveBrewAssign, serveBrewAbandon, serveBrewRelease, serveBrewRead,
      serveVesselClear, serveVesselStart, serveGroupStart, serveVesselHalt, serveContinueStep, serveAuthority,
      serveLock, serveRelease, serveDiscard, serveCastEnd, serveCastRead, serveCastSettle, servePeriodClose,
      serveDutyRead, serveJournalRead, serveJournalRelease, serveJournalRetry] <;>
    split <;> simp [*]

/-! ### RESET -/

@[simp] theorem addressRead_store (s : State) : (addressRead s).store = s.store := rfl

theorem startUp_store (s : State) : (startUp s).store = s.store := by
  unfold startUp
  split
  · rw [settle_store, store_of_kept (syncAllCauses_kept _)]; rfl
  · rfl

theorem startUp_tells {s : State} (h : s.tells = []) : (startUp s).tells = [] := by
  unfold startUp
  split
  · rfl
  · exact h

theorem startUp_safe {s : State} (h : Safe s) : Safe (startUp s) :=
  ⟨startUp_cap h.capacity, by rw [startUp_store]; exact h.store, startUp_tells h.tells⟩

/-- A full reset keeps the store canonical: a write it cuts short leaves a whole block (R163). -/
theorem fullReset_store_wf (r : Bool) (a : Byte) {s : State} (h : storeWf s.store = true) :
    storeWf (fullReset r a s).store = true := by
  unfold fullReset
  simp only
  split
  · exact cutStore_wf h
  · rw [startUp_store]; exact cutStore_wf h

theorem fullReset_safe (r : Bool) (a : Byte) {s : State} (h : storeWf s.store = true) : Safe (fullReset r a s) := by
  refine ⟨fullReset_cap r a s, fullReset_store_wf r a h, ?_⟩
  unfold fullReset
  simp only
  split
  · rfl
  · exact startUp_tells rfl

theorem releaseReset_safe (a : Byte) {s : State} (h : Safe s) : Safe (releaseReset a s) := by
  unfold releaseReset
  split
  · exact startUp_safe ⟨pins_cap _ h.capacity, h.store, h.tells⟩
  · exact h

theorem serveReset_cap (a : Byte) (rq : Request) {s : State} (h : Capacity s) : Capacity (serveReset a rq s) := by
  unfold serveReset doResetFull
  split
  · split
    · exact answer_cap _ _ _ _ h
    · exact fullReset_cap _ _ _
  · exact doResetVessels_cap _ h
  · exact answer_cap _ _ _ _ h

theorem serveReset_wf (a : Byte) (rq : Request) {s : State} (h : storeWf s.store = true) :
    storeWf (serveReset a rq s).store = true := by
  unfold serveReset doResetFull
  split
  · split
    · rw [store_of_kept (answer_kept ..)]; exact h
    · exact fullReset_store_wf _ _ h
  · rw [store_of_kept (doResetVessels_kept ..)]; exact h
  · rw [store_of_kept (answer_kept ..)]; exact h

/-- The parameters of RESET(VESSELS) name no full reset (R184). -/
theorem serveReset_vessels (a : Byte) {rq : Request} (h : rq.params = vesselsLevel) :
    serveReset a rq = doResetVessels rq := by
  funext s
  unfold serveReset
  rw [h, show parseReq s.stationAddress 7 vesselsLevel = some (.reset true) from rfl]

/-- A well-formed RESET_VESSELS has the parameters of that level. -/
theorem params_of_resetVessels {rq : Request} (h : WellFormed (.resetVessels rq)) : rq.params = vesselsLevel := by
  have level := (List.append_eq_nil_iff.1 h).2
  simpa using Laws.require_eq_nil level

/-! ### What a command can do -/

/-- What the commands of the input pins do to the pins (R163, R184). -/
inductive PinsMove (p : Pins) : Instr → Pins → Prop
  | warned : PinsMove p .powerFailWarning { p with powerFail := true }
  | withdrawn : PinsMove p .powerWarningWithdrawn { p with powerFail := false }
  | protectOn : PinsMove p .journalProtectAsserted { p with protect := true }
  | protectOff : PinsMove p .journalProtectWithdrawn { p with protect := false }

/-- The five commands of the journal store (R161, R166, R167). -/
inductive StoreCommand : Instr → Prop
  | erased : StoreCommand .journalEraseDone
  | programmed : StoreCommand .journalProgramDone
  | readBack (a : StoreAnswer) : StoreCommand (.journalReadbackDone a)
  | read (a : StoreAnswer) : StoreCommand (.journalReadBlockDone a)
  | mounted (a : StoreAnswer) : StoreCommand (.mountBlockReadDone a)

/-- `Effect s i t`: command `i` can bring `s` to `t`. -/
inductive Effect (s : State) : Instr → State → Prop
  | nothing (i : Instr) : Effect s i s
  | acts (i : Instr) {f : State → State} (h : Keeps f) : Effect s i (whenActive f s)
  | serves (i : Instr) (q : Queued) {f : State → State} (h : Keeps f) : Effect s i (onRequest q f s)
  | pins {i : Instr} {p : Pins} {f : State → State} (m : PinsMove s.pins i p) (h : Keeps f) :
      Effect s i (whenActive f { s with pins := p })
  | stores {i : Instr} {f : State → State} (c : StoreCommand i) (h : KeepsFixed f) : Effect s i (whenActive f s)
  | repeats (c : Character) (h : s.mode = .bypass) :
      Effect s (.characterReceived c) (withLoop (fun l => { l with repeated := some c }) s)
  | resets (r : Bool) (a : Byte) : Effect s (.fullReset r a) (fullReset r a s)
  | released (a : Byte) : Effect s (.resetInputReleased a) (releaseReset a s)
  | resetRequest (i : Instr) (a : Byte) (rq : Request) (h : (∃ p, i = .resetFull rq p) ∨ ¬WellFormed i) :
      Effect s i (onRequest (queuedOf 7 rq) (serveReset a rq) s)

/-- A command taken when its timer or its condition holds. -/
theorem effect_of_due {i : Instr} {s : State} {b : Bool} {f : State → State} (h : Keeps f)
    (e : exec i s = if b then .next (whenActive f s) else .next s) : ∃ t, exec i s = .next t ∧ Effect s i t := by
  rw [e]
  split
  · exact ⟨_, rfl, .acts i h⟩
  · exact ⟨_, rfl, .nothing i⟩

/-- A character in each of the three modes (R1, R2, R4). -/
theorem effect_of_character (c : Character) (s : State) :
    ∃ t, exec (.characterReceived c) s = .next t ∧ Effect s (.characterReceived c) t := by
  show ∃ t, execCharacterReceived c s = .next t ∧ _
  unfold execCharacterReceived
  split
  · exact ⟨_, rfl, .nothing _⟩
  · rename_i e
    exact ⟨_, rfl, .repeats c e⟩
  · rename_i e
    refine ⟨_, rfl, ?_⟩
    have body : Keeps (receiveCharacter c) := ⟨receiveCharacter_kept c, fun _ => receiveCharacter_cap c⟩
    have acted := Effect.acts (s := s) (.characterReceived c) body
    unfold whenActive at acted
    rwa [if_pos e] at acted

/-- RESET_VESSELS, whose parameters name its level when it is well formed (R184). -/
theorem effect_of_resetVessels (rq : Request) (s : State) :
    ∃ t, exec (.resetVessels rq) s = .next t ∧ Effect s (.resetVessels rq) t := by
  refine ⟨_, rfl, ?_⟩
  by_cases h : WellFormed (.resetVessels rq)
  · rw [serveReset_vessels _ (params_of_resetVessels h)]
    exact .serves _ _ ⟨doResetVessels_kept rq, fun _ => doResetVessels_cap rq⟩
  · exact .resetRequest _ _ rq (.inr h)

/-- An unknown request code is answered BAD_REQUEST (R171). -/
theorem effect_of_unknown (source tag : Byte) (payload : List Byte) (s : State) :
    ∃ t, exec (.unknownRequestCode source tag payload) s = .next t
      ∧ Effect s (.unknownRequestCode source tag payload) t := by
  show ∃ t, execUnknownRequestCode source tag payload s = .next t ∧ _
  unfold execUnknownRequestCode
  split
  · exact ⟨_, rfl, .nothing _⟩
  · exact ⟨_, rfl, .serves _ _ ⟨fun _ => reply_kept .., fun _ => reply_cap _ _ _ _ _⟩⟩

/-- The power-fail warning, new or already taken (R184). -/
theorem effect_of_powerFail (s : State) : ∃ t, exec .powerFailWarning s = .next t ∧ Effect s .powerFailWarning t := by
  show ∃ t, execPowerFailWarning s = .next t ∧ _
  unfold execPowerFailWarning
  split
  · exact ⟨_, rfl, .nothing _⟩
  · exact ⟨_, rfl, .pins .warned ⟨powerFailEffect_kept, fun _ => powerFailEffect_cap⟩⟩

/-- Every command completes, with one of the effects listed. -/
theorem command_effect (i : Instr) (s : State) : ∃ t, exec i s = .next t ∧ Effect s i t := by
  cases hf : serviceOf i with
  | some f =>
    obtain ⟨q, e⟩ := exec_serviceOf hf
    exact ⟨_, e s, .serves i q (serviceOf_keeps hf)⟩
  | none =>
    cases i
    case fullReset r a => exact ⟨_, rfl, .resets r a⟩
    case resetInputReleased a => exact ⟨_, rfl, .released a⟩
    case resetFull rq p => exact ⟨_, rfl, .resetRequest _ p rq (.inl ⟨p, rfl⟩)⟩
    case resetVessels rq => exact effect_of_resetVessels rq s
    case unknownRequestCode source tag payload => exact effect_of_unknown source tag payload s
    case characterReceived c => exact effect_of_character c s
    case frameComplete bytes => exact ⟨_, rfl, .acts _ ⟨receiveFrame_kept bytes, fun _ => receiveFrame_cap bytes⟩⟩
    case downstreamFrameSent => exact ⟨_, rfl, .acts _ ⟨frameSent_kept, fun _ => frameSent_cap⟩⟩
    case linkTimerExpiry => exact effect_of_due ⟨linkExpired_kept, fun _ => linkExpired_cap⟩ rfl
    case staleExpiry row => exact effect_of_due ⟨staleExpired_kept row, fun _ => staleExpired_cap row⟩ rfl
    case holdSlotExpiry n =>
      exact effect_of_due ⟨fun _ => kept_of_outer (expireSlot_outer ..), fun _ => expireSlot_cap n⟩ rfl
    case refreshTimerExpiry v =>
      exact effect_of_due ⟨fun _ => kept_of_outer (refreshExpiry_outer ..), fun _ => refreshExpiry_cap v⟩ rfl
    case holdTimerExpiry v =>
      exact effect_of_due ⟨fun _ => kept_of_outer (completeStep_outer ..), fun _ => completeStep_cap v⟩ rfl
    case transferUnblocked v =>
      exact effect_of_due ⟨fun _ => kept_of_outer (advance_outer ..), fun _ => advance_cap 256 v⟩ rfl
    case castOpenRetry =>
      exact effect_of_due ⟨fun _ => kept_of_outer (advance_outer ..), fun _ => advance_cap 256 .whirlpool⟩ rfl
    case confirmTimerExpiry =>
      exact effect_of_due ⟨fun _ => kept_of_works (confirmExpiry_works _), fun _ => confirmExpiry_cap⟩ rfl
    case strokeTimerExpiry =>
      exact effect_of_due ⟨fun _ => kept_of_works (strokeTimeout_works _), fun _ => strokeTimeout_cap⟩ rfl
    case settleTimerExpiry =>
      exact effect_of_due ⟨fun _ => kept_of_works (settleExpiry_works _), fun _ => settleExpiry_cap⟩ rfl
    case reportTimerExpiry => exact effect_of_due ⟨reportExpiry_kept, fun _ => reportExpiry_cap⟩ rfl
    case firstActivation => exact effect_of_due ⟨firstActivate_kept, fun _ => firstActivate_cap⟩ rfl
    case castCloseReoffer => exact ⟨_, rfl, .acts _ ⟨reofferClose_kept, fun _ => reofferClose_cap⟩⟩
    case journalWriteBegin => exact ⟨_, rfl, .acts _ ⟨writeIfPossible_kept, fun _ => writeIfPossible_cap⟩⟩
    case powerFailWarning => exact effect_of_powerFail s
    case powerWarningWithdrawn =>
      exact ⟨_, rfl, .pins .withdrawn ⟨syncAllCauses_kept, fun _ => syncAllCauses_cap⟩⟩
    case journalProtectAsserted => exact ⟨_, rfl, .pins .protectOn ⟨startRead_kept, fun _ => startRead_cap⟩⟩
    case journalProtectWithdrawn => exact ⟨_, rfl, .pins .protectOff ⟨fun _ => rfl, fun _ h => h⟩⟩
    case journalEraseDone =>
      exact ⟨_, rfl, .stores .erased ⟨eraseDone_fixed, fun _ => eraseDone_wf, fun _ => eraseDone_cap⟩⟩
    case journalProgramDone =>
      exact ⟨_, rfl, .stores .programmed ⟨programDone_fixed, fun _ => programDone_wf, fun _ => programDone_cap⟩⟩
    case journalReadbackDone a =>
      exact ⟨_, rfl, .stores (.readBack a) ⟨readbackDone_fixed a, fun _ => readbackDone_wf a, fun _ => readbackDone_cap a⟩⟩
    case journalReadBlockDone a =>
      exact ⟨_, rfl, .stores (.read a) ⟨readBlockDone_fixed a, fun _ => readBlockDone_wf a, fun _ => readBlockDone_cap a⟩⟩
    case mountBlockReadDone a =>
      exact ⟨_, rfl, .stores (.mounted a)
        ⟨mountBlockDone_fixed a, fun _ => mountBlockDone_wf a, fun _ => mountBlockDone_cap a⟩⟩
    all_goals cases hf

theorem effect_of_exec {i : Instr} {s t : State} (h : exec i s = .next t) : Effect s i t := by
  obtain ⟨u, hu, e⟩ := command_effect i s
  rw [h] at hu
  cases hu
  exact e

/-! ### Every step keeps the state safe -/

theorem effect_safe {i : Instr} {s t : State} (e : Effect s i t) (h : Safe s) : Safe t := by
  cases e with
  | nothing => exact h
  | acts _ k => exact whenActive_safe k.cap k.wf h
  | serves _ q k => exact onRequest_safe q k.cap k.wf h
  | pins _ k => exact whenActive_safe k.cap k.wf ⟨pins_cap _ h.capacity, h.store, h.tells⟩
  | stores _ k => exact whenActive_safe k.cap k.wf h
  | repeats c _ => exact ⟨withLoop_cap _ h.capacity rfl le_rfl le_rfl rfl id id, h.store, h.tells⟩
  | resets r a => exact fullReset_safe r a h.store
  | released a => exact releaseReset_safe a h
  | resetRequest _ a rq _ =>
    exact onRequest_safe _ (fun _ => serveReset_cap a rq) (fun _ => serveReset_wf a rq) h

theorem tick_safe {s : State} (h : Safe s) : Safe (tick s) := by
  unfold tick
  split
  · exact h
  · exact ⟨loopTime_cap _ h.capacity, h.store, h.tells⟩

/-- Settles O5: a step is a command, or a millisecond of loop time. -/
theorem everyStepKeepsTheStateSafe : Obligations.EveryStepKeepsTheStateSafe := by
  intro s t h e
  unfold step at e
  split at e
  · unfold idle at e
    split at e
    · exact effect_safe (effect_of_exec e) h
    · cases e; exact tick_safe h
  · exact effect_safe (effect_of_exec e) ⟨pending_cap _ h.capacity, h.store, h.tells⟩

/-! ### What only some commands change -/

/-- The pins after a pins' command: the address and the reset input as they were, and the other two levels changed by
their own commands alone. -/
theorem PinsMove.frame {i : Instr} {p q : Pins} (m : PinsMove p i q) :
    q.address = p.address ∧ q.reset = p.reset
    ∧ (i ≠ .powerFailWarning → i ≠ .powerWarningWithdrawn → q.powerFail = p.powerFail)
    ∧ (i ≠ .journalProtectAsserted → i ≠ .journalProtectWithdrawn → q.protect = p.protect) := by
  cases m <;> simp

/-- A well-formed command that is no reset keeps the fixed parts but for the pins, which a pins' command moves, and the
store but for the five store commands. -/
theorem effect_frame {i : Instr} {s t : State} (e : Effect s i t) (wf : WellFormed i) (h1 : ∀ r a, i ≠ .fullReset r a)
    (h2 : ∀ a, i ≠ .resetInputReleased a) (h3 : ∀ rq a, i ≠ .resetFull rq a) :
    (∃ p, (p = s.pins ∨ PinsMove s.pins i p) ∧ t.fixed = { s.fixed with pins := p })
    ∧ (t.store = s.store ∨ StoreCommand i) := by
  have same : ∀ {u : State}, u.kept = s.kept →
      (∃ p, (p = s.pins ∨ PinsMove s.pins i p) ∧ u.fixed = { s.fixed with pins := p })
      ∧ (u.store = s.store ∨ StoreCommand i) :=
    fun k => ⟨⟨s.pins, .inl rfl, fixed_of_kept k⟩, .inl (store_of_kept k)⟩
  cases e with
  | nothing => exact same rfl
  | acts _ k => exact same (whenActive_kept _ k.kept s)
  | serves _ q k => exact same (onRequest_kept q _ k.kept s)
  | repeats c _ => exact same rfl
  | @pins _ p _ m k =>
    have kept := whenActive_kept _ k.kept { s with pins := p }
    exact ⟨⟨p, .inr m, fixed_of_kept kept⟩, .inl ((store_of_kept kept).trans rfl)⟩
  | stores c k => exact ⟨⟨s.pins, .inl rfl, whenActive_fixed k.fixed s⟩, .inr c⟩
  | resets r a => exact absurd rfl (h1 r a)
  | released a => exact absurd rfl (h2 a)
  | resetRequest _ a rq h =>
    obtain ⟨p, rfl⟩ | h := h
    · exact absurd rfl (h3 rq p)
    · exact absurd wf h

/-- Settles O8, from the frame of the commands' effects. -/
theorem commandsKeepModeAddressTimeAndStore : Obligations.CommandsKeepModeAddressTimeAndStore := by
  intro c s t wf h1 h2 h3 e
  obtain ⟨⟨p, hp, fixed⟩, store⟩ := effect_frame (effect_of_exec e) wf h1 h2 h3
  have pins : t.pins = p := congrArg Fixed.pins fixed
  have frame : p.address = s.pins.address ∧ p.reset = s.pins.reset
      ∧ (c ≠ .powerFailWarning → c ≠ .powerWarningWithdrawn → p.powerFail = s.pins.powerFail)
      ∧ (c ≠ .journalProtectAsserted → c ≠ .journalProtectWithdrawn → p.protect = s.pins.protect) := by
    obtain rfl | m := hp
    · exact ⟨rfl, rfl, fun _ _ => rfl, fun _ _ => rfl⟩
    · exact m.frame
  obtain ⟨address, reset, powerFail, protect⟩ := frame
  refine ⟨congrArg Fixed.mode fixed, congrArg Fixed.stationAddress fixed, congrArg Fixed.relayOpen fixed,
    congrArg Fixed.loopTime fixed, ?_⟩
  rw [pins]
  refine ⟨address, reset, powerFail, protect, fun n1 n2 n3 n4 n5 => ?_⟩
  obtain store | store := store
  · exact store
  · cases store with
    | erased => exact absurd rfl n1
    | programmed => exact absurd rfl n2
    | readBack a => exact absurd rfl (n3 a)
    | read a => exact absurd rfl (n4 a)
    | mounted a => exact absurd rfl (n5 a)

/-! ### BYPASS mode -/

/-- Outside ACTIVE mode a command that is no character, no full reset, no release of the reset input and no pins'
command changes nothing. -/
theorem effect_inactive {i : Instr} {s t : State} (e : Effect s i t) (hm : s.mode = .bypass)
    (h1 : ∀ c, i ≠ .characterReceived c) (h2 : ∀ r a, i ≠ .fullReset r a) (h3 : ∀ p, ¬PinsMove s.pins i p) : t = s := by
  have inactive : s.mode ≠ .active := by rw [hm]; decide
  cases e with
  | nothing => rfl
  | acts | stores => exact whenActive_inactive _ inactive
  | serves | resetRequest => exact onRequest_inactive _ _ inactive
  | pins m => exact absurd m (h3 _)
  | repeats c => exact absurd rfl (h1 c)
  | resets r a => exact absurd rfl (h2 r a)
  | released a => exact if_neg fun h => by rw [hm] at h; cases h.1

/-- Settles O9. -/
theorem bypassOnlyRepeats : Obligations.BypassOnlyRepeats := by
  intro s hm
  have inactive : s.mode ≠ .active := by rw [hm]; decide
  have repeated : ∀ c, exec (.characterReceived c) s = .next { s with loop := { s.loop with repeated := some c } } := by
    intro c
    show execCharacterReceived c s = _
    unfold execCharacterReceived
    split
    · rename_i e; rw [hm] at e; cases e
    · rfl
    · rename_i e; exact absurd e inactive
  have pinned : ∀ (f : State → State) (p : Pins),
      (.next (whenActive f { s with pins := p }) : Host.Outcome State Fault Refusal) = .next { s with pins := p } :=
    fun f p => congrArg _ (whenActive_inactive f (s := { s with pins := p }) inactive)
  have warned : exec .powerFailWarning s = .next { s with pins := { s.pins with powerFail := true } } := by
    show execPowerFailWarning s = _
    unfold execPowerFailWarning
    split
    · rename_i already
      rw [← already]
    · exact pinned _ _
  have others : ∀ i, (∀ c, i ≠ .characterReceived c) → (∀ r a, i ≠ .fullReset r a) → (∀ p, ¬PinsMove s.pins i p) →
      exec i s = .next s := by
    intro i h1 h2 h3
    obtain ⟨t, e, effect⟩ := command_effect i s
    rw [e, effect_inactive effect hm h1 h2 h3]
  refine ⟨repeated, warned, pinned _ _, pinned _ _, pinned _ _, fun p => others _ nofun nofun nofun, ?_⟩
  intro i h1 h2 n1 n2 n3 n4
  refine others i h1 h2 fun p m => ?_
  cases m
  · exact n1 rfl
  · exact n2 rfl
  · exact n3 rfl
  · exact n4 rfl

/-! ### The state after reset -/

/-- Settles O4: after reset nothing waits anywhere, and the mount under way is the one cause that holds. -/
theorem resetIsSafe : Obligations.ResetIsSafe := by
  refine ⟨⟨⟨nofun, by decide, by decide, by decide, rfl, rfl, rfl, by decide, by decide, by decide, by decide,
    fun _ => ⟨rfl, rfl⟩, nofun⟩, rfl, rfl⟩, fun k => ?_⟩
  cases k
  case pvStale v | suspended v | blocked v | held v => cases v <;> decide
  all_goals decide

end Sys2Proof.Machine
end

section
/-! The reception's laws (R1, R5 to R12): a frame is read back from its bytes, what each character does, and what
becomes of a complete frame that ends here. -/

namespace Sys2Proof.Machine

variable {s t : State}

/-! ### A frame and its bytes (1.3) -/

theorem Frame.bytes_eq (f : Frame) :
    f.bytes = [f.kind, f.dest, f.source, f.hop, f.tag, BitVec.ofNat 8 f.payload.length] ++
      (f.payload ++ [(f.check >>> 8).setWidth 8, f.check.setWidth 8]) := rfl

theorem Frame.bytes_length (f : Frame) : f.bytes.length = 8 + f.payload.length := by
  simp only [Frame.bytes_eq, List.length_append, List.length_cons, List.length_nil]
  omega

/-- A Length of up to 120 is a byte. -/
theorem toNat_lengthByte {n : Nat} (h : n ≤ 120) : (BitVec.ofNat 8 n).toNat = n := by
  rw [BitVec.toNat_ofNat]
  omega

/-- A word is read back from its two bytes, high byte first. -/
theorem word_of_bytes (w : BitVec 16) :
    ((w >>> 8).setWidth 8).setWidth 16 <<< 8 ||| (w.setWidth 8).setWidth 16 = w := by
  ext i hi
  simp only [BitVec.getElem_or, BitVec.getElem_shiftLeft, BitVec.getElem_setWidth, BitVec.getLsbD_setWidth,
    BitVec.getLsbD_ushiftRight]
  by_cases low : i < 8
  · simp [low, BitVec.getLsbD_eq_getElem hi]
  · have back : 8 + (i - 8) = i := by omega
    have inside : i - 8 < 8 := by omega
    simp [low, inside, back, BitVec.getLsbD_eq_getElem hi]

theorem Frame.ofBytes_bytes (f : Frame) (h : f.payload.length ≤ 120) : Frame.ofBytes f.bytes = f := by
  have payload : (f.bytes.drop 6).take (f.bytes.getD 5 0).toNat = f.payload := by
    show (f.payload ++ _).take (BitVec.ofNat 8 f.payload.length).toNat = f.payload
    rw [toNat_lengthByte h, List.take_left]
  have check : f.bytes.drop (6 + (f.bytes.getD 5 0).toNat) = [(f.check >>> 8).setWidth 8, f.check.setWidth 8] := by
    show f.bytes.drop (6 + (BitVec.ofNat 8 f.payload.length).toNat) = _
    rw [toNat_lengthByte h, ← List.drop_drop]
    show (f.payload ++ _).drop f.payload.length = _
    rw [List.drop_left]
  unfold Frame.ofBytes
  simp only [payload, check]
  show ({ f with check := ((f.check >>> 8).setWidth 8).setWidth 16 <<< 8 ||| (f.check.setWidth 8).setWidth 16 } : Frame) = f
  rw [word_of_bytes]

/-! ### The reception buffer (R5) -/

theorem received_of_short {b : List Byte} (h : b.length < 6) : received b = .more b := by
  have none : b[5]? = none := List.getElem?_eq_none (by omega)
  simp [received, frameLength, none]

/-- With its Length arrived, a frame of `8 + l` bytes is too long, whole, or still open. -/
theorem received_of_length {b : List Byte} {l : Byte} (h : b[5]? = some l) :
    received b = if 120 < l.toNat then .tooLong
      else if 8 + l.toNat ≤ b.length then .whole (b.take (8 + l.toNat)) else .more b := by
  simp only [received, frameLength, h, Option.map_some]
  by_cases long : 120 < l.toNat
  · rw [if_pos long, if_pos (by omega)]
  · rw [if_neg long, if_neg (by omega)]

theorem received_bytes (f : Frame) (h : f.payload.length ≤ 120) : received f.bytes = .whole f.bytes := by
  have length : (BitVec.ofNat 8 f.payload.length).toNat = f.payload.length := toNat_lengthByte h
  rw [received_of_length (l := BitVec.ofNat 8 f.payload.length) rfl, length, if_neg (by omega),
    if_pos (by rw [f.bytes_length]), ← f.bytes_length, List.take_length]

theorem received_take_bytes (f : Frame) (h : f.payload.length ≤ 120) {k : Nat} (hk : k < f.bytes.length) :
    received (f.bytes.take k) = .more (f.bytes.take k) := by
  have short : (f.bytes.take k).length = k := by rw [List.length_take]; omega
  by_cases h6 : k < 6
  · exact received_of_short (by omega)
  · have length : (f.bytes.take k)[5]? = some (BitVec.ofNat 8 f.payload.length) := by
      rw [List.getElem?_take_of_lt (by omega)]; rfl
    rw [f.bytes_length] at hk
    rw [received_of_length length, toNat_lengthByte h, if_neg (by omega), if_neg (by omega)]

/-- Settles O12. -/
theorem frameBytesRoundTrip : Obligations.FrameBytesRoundTrip := fun f h =>
  ⟨f.ofBytes_bytes h, received_bytes f h, fun _ hk => received_take_bytes f h hk⟩

/-! ### Frame errors -/

theorem latch_eq_latched (c : Cond) (s : State) : latch c s = s.latched c := by
  unfold latch withAgent State.latched
  simp only
  split <;> rfl

theorem frameError_eq_erred (s : State) : frameError s = s.erred := latch_eq_latched _ _

theorem truncate_eq_broken (s : State) : truncate s = s.broken := by
  unfold truncate State.broken
  rw [frameError_eq_erred]
  rfl

@[simp] theorem erred_tells (s : State) : s.erred.tells = s.tells := rfl

@[simp] theorem broken_tells (s : State) : s.broken.tells = s.tells := by
  unfold State.broken
  split <;> rfl

/-! ### Characters (R1) -/

/-- What a character of the upstream pair leaves in ACTIVE mode. -/
theorem leaves_character {c : Character} {u : State} (h : s.mode = .active) (hu : receiveCharacter c s = u)
    (ht : u.tells = []) : Leaves (.characterReceived c) s u := by
  refine ⟨settle (receiveCharacter c s), ?_, by rw [hu]; exact settle_rest ht⟩
  show execCharacterReceived c s = _
  unfold execCharacterReceived
  rw [h]

theorem fault_iff (c : Character) :
    Character.fault c = true ↔ c.stop = false ∨ (c.control = true ∧ c.value ≠ 0x55 ∧ c.value ≠ 0xA3) := by
  simp [Character.fault, idleChar, startChar, and_assoc]

theorem receiveCharacter_fault {c : Character} (h : Character.fault c = true) : receiveCharacter c s = s.broken := by
  rw [receiveCharacter, if_pos h, truncate_eq_broken]

theorem receiveCharacter_idle {c : Character} (h : ¬Character.fault c = true) (hc : c.control = true)
    (hv : c.value = 0x55) : receiveCharacter c s = s.heard.broken := by
  have notStart : ¬c.value = startChar := by rw [hv]; decide
  rw [receiveCharacter, if_neg h]
  simp only
  rw [if_pos hc, if_neg notStart, truncate_eq_broken]
  rfl

theorem receiveCharacter_start {c : Character} (h : ¬Character.fault c = true) (hc : c.control = true)
    (hv : c.value = 0xA3) : receiveCharacter c s = s.heard.broken.receiving (some []) := by
  rw [receiveCharacter, if_neg h]
  simp only
  rw [if_pos hc, if_pos (show c.value = startChar from hv), truncate_eq_broken]
  rfl

theorem receiveCharacter_data {c : Character} (h : ¬Character.fault c = true) (hc : c.control = false) :
    receiveCharacter c s = match s.loop.rx with
      | none => s.heard
      | some b => receptionStep (received (b ++ [c.value])) s.heard := by
  rw [receiveCharacter, if_neg h]
  simp only
  rw [if_neg (by rw [hc]; decide)]
  rfl

theorem receiveFrame_closed (b : List Byte) (h : s.loop.rx = none) :
    receiveFrame b s = receptionStep (received b) s.heard := by
  unfold receiveFrame
  rw [h]
  rfl

theorem exec_frameComplete (b : List Byte) (h : s.mode = .active) :
    exec (.frameComplete b) s = .next (settle (receiveFrame b s)) := by
  show Host.Outcome.next (whenActive (receiveFrame b) s) = _
  rw [whenActive, if_pos h]

/-- A data character for an open frame: it joins, ends the frame as an error, or ends it whole (R1, R5). -/
theorem data_character_of_open {c : Character} {b : List Byte} (q : Quiet s) (h : ¬Character.fault c = true)
    (hc : c.control = false) (hb : s.loop.rx = some b) :
    exec (.characterReceived c) s = .next (settle (receptionStep (received (b ++ [c.value])) s.heard)) := by
  show execCharacterReceived c s = _
  unfold execCharacterReceived
  rw [q.active]
  simp only
  rw [receiveCharacter_data h hc, hb]

/-- Settles O14. -/
theorem characterReception : Obligations.CharacterReception := by
  intro c s q
  simp only [← fault_iff]
  have heard : s.heard.tells = [] := q.tells
  refine ⟨fun h => ?_, fun h hc hv => ?_, fun h hc hv => ?_, fun h hc hr => ?_, fun b h hc hb => ⟨fun short => ?_, ?_⟩⟩
  · exact leaves_character q.active (receiveCharacter_fault h) ((broken_tells s).trans q.tells)
  · exact leaves_character q.active (receiveCharacter_idle h hc hv) ((broken_tells _).trans heard)
  · exact leaves_character q.active (receiveCharacter_start h hc hv) ((broken_tells s.heard).trans heard)
  · exact leaves_character q.active (by rw [receiveCharacter_data h hc, hr]) heard
  · refine ⟨_, data_character_of_open q h hc hb, ?_⟩
    rw [received_of_short short]
    exact settle_rest heard
  · intro l hl
    have step := data_character_of_open q h hc hb
    rw [received_of_length hl] at step
    refine ⟨fun long => ⟨_, step, ?_⟩, fun fits more => ⟨_, step, ?_⟩, fun fits whole => ?_⟩
    · rw [if_pos long]
      show (settle (frameError (s.heard.receiving none))).rest = _
      rw [frameError_eq_erred]
      exact settle_rest heard
    · rw [if_neg (by omega), if_neg (by omega)]
      exact settle_rest heard
    · rw [exec_frameComplete _ (s := s.receiving none) q.active, receiveFrame_closed _ rfl, received_of_length hl, step]
      rw [if_neg (by omega), if_pos whole.ge]
      rfl

/-! ### Complete frames -/

/-- The bytes of a frame bring its arrival, the link timer restarted. -/
theorem exec_frame (h : s.mode = .active) (hr : s.loop.rx = none) (f : Frame) (hl : f.payload.length ≤ 120) :
    exec (.frameComplete f.bytes) s = .next (settle (frameArrived f s.heard)) := by
  have closed : withLoop (fun l => { l with rx := none }) s.heard = s.heard := by
    show ({ s with loop := { s.heard.loop with rx := none } } : State) = s.heard
    rw [← hr]
    rfl
  rw [exec_frameComplete _ h, receiveFrame_closed _ hr, received_bytes f hl]
  show Host.Outcome.next (settle (frameArrived (Frame.ofBytes f.bytes) (withLoop (fun l => { l with rx := none }) s.heard))) = _
  rw [f.ofBytes_bytes hl, closed]

theorem linkUp_of_up (h : s.loop.linkDown = false) : linkUp s = s := by
  unfold linkUp
  rw [h]
  rfl

theorem Frame.Good.passes {f : Frame} (g : f.Good) : (frameSound f && shapeOk f) = true := by
  rw [g.sound, g.shape]; rfl

/-- What becomes of a good frame, by its disposition (R8, R12). -/
theorem frameArrived_good {f : Frame} (g : f.Good) (s : State) :
    frameArrived f s = match disposition s.stationAddress f with
      | .removed | .stray => linkUp s
      | .consumed => consumeFrame f (linkUp s)
      | .forwarded => forwardFrame f (linkUp s) := by
  have address : (linkUp s).stationAddress = s.stationAddress :=
    congrArg Fixed.stationAddress (fixed_of_kept (linkUp_kept s))
  unfold frameArrived
  rw [if_pos g.passes]
  simp only [address] <;> rfl

theorem disposition_discarded {a : Byte} {f : Frame} (h : f.source = a ∨ 64 ≤ f.hop.toNat) :
    disposition a f = .removed ∨ disposition a f = .stray := by
  unfold disposition
  by_cases own : f.source = a
  · exact .inl (if_pos own)
  · rw [if_neg own, if_pos (h.resolve_left own)]
    exact .inr rfl

theorem disposition_consumed {a : Byte} {f : Frame} (hs : f.source ≠ a) (hh : f.hop.toNat < 64) (hd : f.dest = a) :
    disposition a f = .consumed := by
  unfold disposition
  rw [if_neg hs, if_neg (by omega), if_pos hd]

theorem disposition_forwarded {a : Byte} {f : Frame} (hs : f.source ≠ a) (hh : f.hop.toNat < 64) (hd : f.dest ≠ a) :
    disposition a f = .forwarded := by
  unfold disposition
  rw [if_neg hs, if_neg (by omega), if_neg hd]

theorem frameArrived_discarded {f : Frame} (g : f.Good) (h : f.source = s.stationAddress ∨ 64 ≤ f.hop.toNat) :
    frameArrived f s = linkUp s := by
  rw [frameArrived_good g]
  obtain e | e := disposition_discarded h <;> rw [e]

theorem frameArrived_consumed {f : Frame} (g : f.Good) (hs : f.source ≠ s.stationAddress) (hh : f.hop.toNat < 64)
    (hd : f.dest = s.stationAddress) : frameArrived f s = consumeFrame f (linkUp s) := by
  rw [frameArrived_good g, disposition_consumed hs hh hd]

theorem frameArrived_forwarded {f : Frame} (g : f.Good) (hs : f.source ≠ s.stationAddress) (hh : f.hop.toNat < 64)
    (hd : f.dest ≠ s.stationAddress) : frameArrived f s = forwardFrame f (linkUp s) := by
  rw [frameArrived_good g, disposition_forwarded hs hh hd]

/-! With the part listening, the bytes of a good frame bring what its disposition says. -/

theorem exec_discarded {f : Frame} (l : Listening s) (g : f.Good) (h : f.source = s.stationAddress ∨ 64 ≤ f.hop.toNat) :
    exec (.frameComplete f.bytes) s = .next (settle s.heard) := by
  rw [exec_frame l.active l.rx f g.length, frameArrived_discarded (s := s.heard) g h, linkUp_of_up (s := s.heard) l.link]

theorem exec_consumed {f : Frame} (l : Listening s) (g : f.Good) (hs : f.source ≠ s.stationAddress)
    (hh : f.hop.toNat < 64) (hd : f.dest = s.stationAddress) :
    exec (.frameComplete f.bytes) s = .next (settle (consumeFrame f s.heard)) := by
  rw [exec_frame l.active l.rx f g.length, frameArrived_consumed (s := s.heard) g hs hh hd,
    linkUp_of_up (s := s.heard) l.link]

theorem exec_forwarded {f : Frame} (l : Listening s) (g : f.Good) (hs : f.source ≠ s.stationAddress)
    (hh : f.hop.toNat < 64) (hd : f.dest ≠ s.stationAddress) :
    exec (.frameComplete f.bytes) s = .next (settle (forwardFrame f s.heard)) := by
  rw [exec_frame l.active l.rx f g.length, frameArrived_forwarded (s := s.heard) g hs hh hd,
    linkUp_of_up (s := s.heard) l.link]

/-- What a settled command leaves. -/
theorem leaves_settled {i : Instr} {u : State} (h : exec i s = .next (settle u)) (ht : u.tells = []) :
    Leaves i s u := ⟨_, h, settle_rest ht⟩

/-! ### Frames that end here (R6 to R9) -/

theorem frameSound_iff (f : Frame) :
    frameSound f = true ↔ f.check = crc16 f.covered ∧ f.kind ∈ [0x01, 0x02, 0x03, 0x10, 0x11, 0x12]
      ∧ 1 ≤ f.dest.toNat ∧ f.dest.toNat ≤ 254 ∧ 1 ≤ f.source.toNat ∧ f.source.toNat ≤ 254 := by
  simp [frameSound, knownKind, stationOk, kindSample, kindDrive, kindNotice, kindManage, kindReply, kindReport,
    and_assoc, or_assoc]

theorem consumeFrame_manage {f : Frame} (h : f.kind = 0x10) :
    consumeFrame f s = queueRequest { source := f.source, tag := f.tag, payload := f.payload } s := if_pos h

/-- A frame of no kind a part takes is discarded at its destination (R9). -/
theorem consumeFrame_other {f : Frame} (h : f.kind = 0x02 ∨ f.kind = 0x11 ∨ f.kind = 0x12) : consumeFrame f s = s := by
  unfold consumeFrame
  obtain h | h | h := h <;> rw [h, if_neg (by decide), if_neg (by decide), if_neg (by decide)]

theorem queueRequest_room (r : Queued) (h : s.agent.requests.length < 8) :
    queueRequest r s = { s with agent := { s.agent with requests := s.agent.requests ++ [r] } } := if_pos h

theorem queueRequest_full {r : Queued} {code : Byte} (h : 8 ≤ s.agent.requests.length)
    (hc : r.payload.head? = some code) :
    queueRequest r s = (offer (replyFrame s r.source r.tag code .queueFull []) .agent s).2 := by
  unfold queueRequest
  rw [if_neg (by omega), List.headD_eq_head?_getD, hc]
  rfl

/-- Settles O16. -/
theorem framesThatEndHere : Obligations.FramesThatEndHere := by
  intro f s l hl
  have heard : s.heard.tells = [] := l.tells
  refine ⟨fun bad => ?_, fun g => ⟨fun own => ?_, fun hs hh hd => ⟨fun kind => ?_, fun kind room => ?_,
    fun kind full code hc => ?_⟩⟩⟩
  · refine leaves_settled (u := s.heard.erred) ?_ heard
    have fails : ¬(frameSound f && shapeOk f) = true := by
      rw [Bool.and_eq_true, frameSound_iff]
      simpa only [and_assoc] using bad
    rw [exec_frame l.active l.rx f hl, frameArrived, if_neg fails, frameError_eq_erred]
  · exact leaves_settled (exec_discarded l g own) heard
  · have taken := exec_consumed l g hs hh hd
    rw [consumeFrame_other kind] at taken
    exact leaves_settled taken heard
  · have taken := exec_consumed l g hs hh hd
    rw [consumeFrame_manage kind, queueRequest_room (s := s.heard) _ room] at taken
    exact leaves_settled taken heard
  · have taken := exec_consumed l g hs hh hd
    rw [consumeFrame_manage kind, queueRequest_full (s := s.heard) (r := ⟨f.source, f.tag, f.payload⟩) full hc] at taken
    obtain ⟨sent, rest⟩ := offered_sent (s := s.heard) (replyFrame s f.source f.tag code .queueFull [])
      (show kindReply ≠ kindDrive by decide) heard l.arbiter
    exact ⟨_, taken, rest, sent⟩

end Sys2Proof.Machine
end

section
/-! The laws of the downstream port (R10, R11, R14 to R17): what an offer to a busy port comes to, that a busy port stays
busy until its frame is sent, the arbiter's choice, and the frames that go on. -/

namespace Sys2Proof.Machine

variable {s t : State}

/-! ### Offers while the port is busy (R14 to R16) -/

theorem samePoint_iff (f g : Frame) :
    samePoint f g = true ↔ f.kind = 0x02 ∧ g.kind = 0x02 ∧ g.dest = f.dest ∧ g.payload.head? = f.payload.head? := by
  simp only [samePoint, kindDrive, Bool.and_eq_true, beq_iff_eq, and_assoc, eq_comm (a := f.dest),
    eq_comm (a := f.payload.head?)]

theorem isEventsFrame_iff (f : Frame) : isEventsFrame f = true ↔ f.kind = 0x12 ∧ f.payload.head? = some 2 := by
  simp [isEventsFrame, kindReport]

theorem replaceDrive_none (f : Frame) (o : Owner) {l : List Insertion} (h : ∀ x ∈ l, ¬samePoint f x.frame = true) :
    replaceDrive f o l = none := by
  induction l with
  | nil => rfl
  | cons a l ih =>
    rw [replaceDrive, if_neg (h a (by simp)), ih fun x hx => h x (by simp [hx])]
    rfl

/-- The first queued DRIVE for the point gives its place (R15). -/
theorem replaceDrive_first {f : Frame} (o : Owner) {a : List Insertion} {q : Insertion} (b : List Insertion)
    (hq : samePoint f q.frame = true) (ha : ∀ x ∈ a, ¬samePoint f x.frame = true) :
    replaceDrive f o (a ++ q :: b) = some (a ++ { q with frame := f, owner := o } :: b, q.owner) := by
  induction a with
  | nil => exact if_pos hq
  | cons x a ih =>
    rw [List.cons_append, replaceDrive, if_neg (ha x (by simp)), ih fun y hy => ha y (by simp [hy])]
    rfl

theorem displaceEvents_none {l : List Insertion} (h : ∀ x ∈ l, ¬isEventsFrame x.frame = true) :
    displaceEvents l = none := by
  induction l with
  | nil => rfl
  | cons a l ih =>
    rw [displaceEvents, if_neg (h a (by simp)), ih fun x hx => h x (by simp [hx])]
    rfl

/-- The first REPORT EVENTS frame is displaced (R16). -/
theorem displaceEvents_first {a : List Insertion} {q : Insertion} (b : List Insertion)
    (hq : isEventsFrame q.frame = true) (ha : ∀ x ∈ a, ¬isEventsFrame x.frame = true) :
    displaceEvents (a ++ q :: b) = some (a ++ b) := by
  induction a with
  | nil => exact if_pos hq
  | cons x a ih =>
    rw [List.cons_append, displaceEvents, if_neg (ha x (by simp)), ih fun y hy => ha y (by simp [hy])]
    rfl

@[simp] theorem tellLeft_loop (o : Owner) (s : State) : (tellLeft o s).loop = s.loop := by cases o <;> rfl

@[simp] theorem latch_loop (c : Cond) (s : State) : (latch c s).loop = s.loop := by
  obtain ⟨l, e⟩ := latch_eq c s
  rw [e]

theorem enterQueue_busy (f : Frame) (o : Owner) (h : s.loop.port ≠ .idle) :
    enterQueue f o s = (.queued, withLoop (fun l =>
      { l with queue := l.queue ++ [{ frame := f, entry := s.loopTime, owner := o }] }) s) := by
  unfold enterQueue
  simp only
  rw [if_neg fun x => h x.1]
  exact congrArg (Prod.mk _) (startNext_busy h)

section
variable {f : Frame} {o : Owner}

/-- A DRIVE for the point of a queued one takes its place (R15). -/
theorem offer_replaces {a : List Insertion} {q : Insertion} {b : List Insertion} (hl : s.loop.queue = a ++ q :: b)
    (hq : samePoint f.sealed q.frame = true) (ha : ∀ x ∈ a, ¬samePoint f.sealed x.frame = true) :
    offer f o s = (.queued, tellLeft q.owner (withLoop (fun l =>
      { l with queue := a ++ { q with frame := f.sealed, owner := o } :: b }) s)) := by
  unfold offer
  simp only [hl, replaceDrive_first o b hq ha]

variable (h : s.loop.port ≠ .idle) (hn : ∀ x ∈ s.loop.queue, ¬samePoint f.sealed x.frame = true)
include h hn

/-- A frame joins the tail of a queue with room (R14). -/
theorem offer_joins (hl : s.loop.queue.length < 32) :
    offer f o s = (.queued, withLoop (fun l =>
      { l with queue := l.queue ++ [{ frame := f.sealed, entry := s.loopTime, owner := o }] }) s) := by
  unfold offer
  simp only [replaceDrive_none f.sealed o hn]
  rw [if_pos hl, enterQueue_busy _ _ h]

/-- To a full queue a DRIVE displaces the oldest REPORT EVENTS frame (R16). -/
theorem offer_displaces (hl : 32 ≤ s.loop.queue.length) (hk : f.kind = kindDrive) {q : List Insertion}
    (hd : displaceEvents s.loop.queue = some q) :
    offer f o s = (.queued, withLoop (fun l =>
      { l with queue := q ++ [{ frame := f.sealed, entry := s.loopTime, owner := o }] }) (latch .eventOverflow s)) := by
  have kind : f.sealed.kind = kindDrive := hk
  unfold offer
  simp only [replaceDrive_none f.sealed o hn]
  rw [if_neg (by omega), if_pos kind]
  simp only [hd]
  rw [enterQueue_busy _ _ (by rw [latch_loop]; exact h), latch_eq_latched, latch_eq_latched]
  rfl

omit h in
/-- To a full queue with no REPORT EVENTS frame a DRIVE is refused with nothing changed (R16). -/
theorem offer_refuses_drive (hl : 32 ≤ s.loop.queue.length) (hk : f.kind = kindDrive)
    (hd : displaceEvents s.loop.queue = none) : offer f o s = (.refused, s) := by
  have kind : f.sealed.kind = kindDrive := hk
  unfold offer
  simp only [replaceDrive_none f.sealed o hn]
  rw [if_neg (by omega), if_pos kind]
  simp only [hd]

omit h in
/-- To a full queue any other frame is refused with EGRESS_CONGESTED (R16). -/
theorem offer_refuses_other (hl : 32 ≤ s.loop.queue.length) (hk : f.kind ≠ kindDrive) :
    offer f o s = (.refused, withLoop (fun l => { l with congested := true }) s) := by
  have kind : f.sealed.kind ≠ kindDrive := hk
  unfold offer
  simp only [replaceDrive_none f.sealed o hn]
  rw [if_neg (by omega), if_neg kind]

end

/-- Settles O18, row by row. -/
theorem insertionQueueOffers : Obligations.InsertionQueueOffers := by
  intro f o s h
  have isFor : ∀ q : Insertion, (f.kind = 0x02 ∧ q.frame.kind = 0x02 ∧ q.frame.dest = f.dest
      ∧ q.frame.payload.head? = f.payload.head?) ↔ samePoint f.sealed q.frame = true :=
    fun q => (samePoint_iff f.sealed q.frame).symm
  simp only [isFor, ← isEventsFrame_iff]
  refine ⟨fun a q b hl hq ha => ?_, fun hn => ⟨fun room => ?_, fun full hk => ⟨fun a q b hl hq ha _ => ?_, fun hd => ?_⟩,
    fun full hk => offer_refuses_other hn full hk⟩⟩
  · rw [offer_replaces hl hq ha]
    exact ⟨rfl, by rw [tellLeft_loop]; rfl, by rw [tellLeft_rest]; rfl⟩
  · rw [offer_joins h hn room]
    exact ⟨rfl, rfl, rfl⟩
  · rw [offer_displaces h hn full hk (by rw [hl]; exact displaceEvents_first b hq ha), latch_eq_latched]
    exact ⟨rfl, rfl, rfl⟩
  · exact offer_refuses_drive hn full hk (displaceEvents_none hd)

/-! ### A busy port stays busy with its frame (R17) -/

/-- `t` has the downstream port of `s`, which is busy. -/
structure PortHeld (s t : State) : Prop where
  busy : s.loop.port ≠ .idle
  port : t.loop.port = s.loop.port

theorem PortHeld.refl (h : s.loop.port ≠ .idle) : PortHeld s s := ⟨h, rfl⟩

theorem PortHeld.still {s t : State} (h : PortHeld s t) : t.loop.port ≠ .idle := by rw [h.port]; exact h.busy

theorem PortHeld.of_loop {u : State} (h : PortHeld s t) (e : u.loop = t.loop) : PortHeld s u :=
  ⟨h.busy, by rw [e]; exact h.port⟩

theorem offer_port (f : Frame) (o : Owner) (h : s.loop.port ≠ .idle) : (offer f o s).2.loop.port = s.loop.port := by
  unfold offer
  simp only
  split
  · rw [tellLeft_loop]; rfl
  · split
    · rw [enterQueue_busy _ _ h]; rfl
    · split
      · split
        · rw [enterQueue_busy _ _ (by rw [latch_loop]; exact h), withLoop_loop, latch_loop]; rfl
        · rfl
      · rfl

theorem PortHeld.offer (f : Frame) (o : Owner) (h : PortHeld s t) : PortHeld s (offer f o t).2 :=
  ⟨h.busy, (offer_port f o h.still).trans h.port⟩

@[simp] theorem raise_loop (k : EventKind) (u : Subject) (b : Option Nat) (a : EventArg) (s : State) :
    (raise k u b a s).loop = s.loop := by
  unfold raise
  simp only
  split
  · split <;> split <;> simp
  · rfl

theorem PortHeld.offerDrive (r d : Nat) (o : Owner) (h : PortHeld s t) : PortHeld s (offerDrive r d o t).2 := by
  unfold Machine.offerDrive
  split
  · exact h.offer ..
  · exact h

theorem PortHeld.offerAddition (e : SendEntry) (h : PortHeld s t) : PortHeld s (offerAddition e t).2 := by
  unfold Machine.offerAddition
  split
  · split
    · exact h.offer ..
    · exact h
  · exact h

theorem recordMissed_loop (n i : Nat) (c : MissCause) (s : State) : (recordMissed n i c s).loop = s.loop := raise_loop ..
theorem recordFired_loop (n i : Nat) (s : State) : (recordFired n i s).loop = s.loop := raise_loop ..

theorem PortHeld.pumpSend (n : Nat) (h : PortHeld s t) : PortHeld s (pumpSend n t) := by
  induction n generalizing t with
  | zero => exact h
  | succ n ih =>
    unfold Machine.pumpSend
    split
    · exact h
    · split
      · exact h.of_loop rfl
      · rename_i e _ _
        split
        · exact ih (h.of_loop rfl)
        · have offered := h.offerAddition e
          split <;> (rename_i eq; rw [eq] at offered)
          · exact ih (offered.of_loop (recordMissed_loop ..))
          · exact offered.of_loop rfl
          · exact offered.of_loop (recordFired_loop ..)
          · exact ih (offered.of_loop (recordFired_loop ..))

theorem PortHeld.boilFrameLeft (h : PortHeld s t) : PortHeld s (boilFrameLeft t) :=
  PortHeld.pumpSend _ (h.of_loop rfl)

theorem PortHeld.tryIssue (h : PortHeld s t) : PortHeld s (tryIssue t) := by
  unfold Machine.tryIssue
  split
  · exact h
  · rename_i c _
    split
    · exact h
    · split
      · have offered := h.offerDrive (lineRow t.tables).dose 1000 (.pitchUnit c.number)
        split <;> (rename_i eq; rw [eq] at offered; exact offered.of_loop rfl)
      · exact h

theorem PortHeld.doseFrameLeft (n : Nat) (h : PortHeld s t) : PortHeld s (doseFrameLeft n t) := by
  unfold Machine.doseFrameLeft
  simp only
  split
  · exact PortHeld.tryIssue (h.of_loop rfl)
  · exact h.tryIssue

theorem PortHeld.drainTells (n : Nat) (h : PortHeld s t) : PortHeld s (drainTells n t) := by
  induction n generalizing t with
  | zero => exact h
  | succ n ih =>
    unfold Machine.drainTells
    split
    · exact h
    · rename_i o rest _
      have told : PortHeld s { t with tells := rest } := h.of_loop rfl
      apply ih
      cases o with
      | boilUnit => exact told.boilFrameLeft
      | pitchUnit c => exact told.doseFrameLeft c
      | agent | guardUnit | sequencer | castMeter => exact told

/-- The end of a command leaves a busy port with its frame. -/
theorem settle_port (h : s.loop.port ≠ .idle) : (settle s).loop.port = s.loop.port := by
  have drained := (PortHeld.refl h).drainTells 64
  have refreshed : PortHeld s (vessels.foldl refreshSync (drainTells 64 s)) := drained.of_loop (refreshAll_loop _ _)
  exact (syncConditions_follows refreshed.still).port.trans refreshed.port

/-! ### The end of a command, but for what the works set aside -/

theorem works_of_rest (h : t.rest = s.rest) : t.works = s.works := by
  have e : ∀ u : State, u.works = u.rest.works := fun _ => rfl
  rw [e t, e s, h]

@[simp] theorem drainTells_works (n : Nat) (s : State) : (drainTells n s).works = s.works := by
  induction n generalizing s with
  | zero => rfl
  | succ n ih =>
    unfold drainTells
    split
    · rfl
    · rename_i o rest _
      have told : ({ s with tells := rest } : State).works = s.works := rfl
      rw [ih]
      cases o with
      | boilUnit => exact (boilFrameLeft_works _).trans told
      | pitchUnit c => exact (doseFrameLeft_works c _).trans told
      | agent | guardUnit | sequencer | castMeter => exact told

@[simp] theorem settle_works (s : State) : (settle s).works = s.works := by
  have synced := works_of_bare (syncConditions_bare (vessels.foldl refreshSync (drainTells 64 s)))
  have refreshed := works_of_rest (refreshAll_rest vessels (drainTells 64 s))
  exact synced.trans (refreshed.trans (drainTells_works 64 s))

/-! ### The arbiter's choice (R17) -/

/-- A transit frame goes next with no insertion frame waiting, a full transit buffer, or none aged. -/
theorem startNext_transit (h : s.loop.port = .idle) (hn : s.loop.transit ≠ [])
    (hq : s.loop.queue = [] ∨ 2 ≤ s.loop.transit.length
      ∨ ∀ q rest, s.loop.queue = q :: rest → ¬s.agent.config.fairness ≤ elapsed s.loopTime q.entry) :
    startNext s = withLoop (fun l => { l with port := .sendingTransit }) s := by
  unfold startNext
  rw [h]
  simp only
  split
  · rename_i e _; exact absurd e hn
  · rfl
  · rename_i e _; exact absurd e hn
  · rename_i q rest et eq
    have young : ¬s.agent.config.fairness ≤ elapsed s.loopTime q.entry := by
      obtain x | x | x := hq
      · rw [eq] at x; cases x
      · rw [et] at x; exact absurd x (Nat.not_succ_le_self 1)
      · exact x q rest eq
    rw [if_neg young]
  · rfl

/-- The oldest insertion frame goes next with no transit frame, or one alone and the insertion frame aged. -/
theorem startNext_insertion (h : s.loop.port = .idle) {q : Insertion} {rest : List Insertion}
    (hq : s.loop.queue = q :: rest)
    (ht : s.loop.transit = [] ∨ s.loop.transit.length = 1 ∧ s.agent.config.fairness ≤ elapsed s.loopTime q.entry) :
    startNext s = tellLeft q.owner (beginInsertion q rest s) := by
  unfold startNext
  rw [h, hq]
  simp only
  obtain e | ⟨e, aged⟩ := ht
  · rw [e]
  · obtain ⟨x, e⟩ := List.length_eq_one_iff.1 e
    rw [e]
    simp only
    rw [if_pos aged]

theorem startNext_nothing (ht : s.loop.transit = []) (hq : s.loop.queue = []) : startNext s = s := by
  unfold startNext
  rw [ht, hq]
  split <;> rfl

/-- The transit buffer once the frame being sent is out (R11). -/
def transitLeft (s : State) : List Frame :=
  if s.loop.port = .sendingTransit then s.loop.transit.tail else s.loop.transit

/-- The port free again, a transit frame's place with it. -/
def portFreed (s : State) : State := { s with loop := { s.loop with transit := transitLeft s, port := .idle } }

theorem frameSent_busy (h : s.loop.port ≠ .idle) : frameSent s = startNext (portFreed s) := by
  unfold frameSent portFreed transitLeft
  split
  · rename_i e; exact absurd e h
  · rename_i e; rw [if_pos e]; rfl
  · rename_i e; rw [if_neg (by rw [e]; nofun)]; rfl

theorem exec_downstreamFrameSent (h : s.mode = .active) :
    exec .downstreamFrameSent s = .next (settle (frameSent s)) := by
  show Host.Outcome.next (whenActive frameSent s) = _
  rw [whenActive, if_pos h]

/-- A frame that begins keeps the port at the end of the command, and with no notice only reports join the tail. -/
theorem settle_begun {u : State} (h : u.loop.port ≠ .idle) (ht : u.tells = []) :
    ∃ more, (settle u).loop.queue = u.loop.queue ++ more := (settle_follows ht h).queue

/-! #### Conditions that are their causes stay as they are -/

theorem condCause_refreshAll (l : List Vessel) (s : State) (k : Cond) :
    condCause (l.foldl refreshSync s) k = condCause s k := by
  induction l generalizing s with
  | nil => rfl
  | cons v l ih =>
    rw [List.foldl_cons, ih]
    cases k
    case suspended w => cases v <;> cases w <;> rfl
    case blocked w => cases v <;> cases w <;> rfl
    all_goals rfl

/-- With the condition set equal to its causes, none leaves and none joins (R177). -/
theorem syncConditions_synced (h : ∀ k, k ∈ s.agent.conditions ↔ condCause s k = true) :
    (syncConditions s).loop = s.loop := by
  have kept : (leaveConds s).agent.conditions = s.agent.conditions :=
    List.filter_eq_self.2 fun k hk => (h k).1 hk
  have none_joins : ∀ k, joinIfCaused (leaveConds s) k = leaveConds s := by
    intro k
    unfold joinIfCaused
    rw [if_neg]
    rw [kept, show condCause (leaveConds s) k = condCause s k by cases k <;> rfl]
    simp only [Bool.and_eq_true, Bool.not_eq_true', List.contains_eq_mem, decide_eq_false_iff_not, not_and, not_not]
    exact (h k).2
  have all : ∀ l : List Cond, l.foldl joinIfCaused (leaveConds s) = leaveConds s := by
    intro l
    induction l with
    | nil => rfl
    | cons k l ih => rw [List.foldl_cons, none_joins, ih]
  unfold syncConditions
  split
  · rw [all, none_joins]; rfl
  · rfl

theorem settle_synced (ht : s.tells = []) (h : ∀ k, k ∈ s.agent.conditions ↔ condCause s k = true) :
    (settle s).loop = s.loop := by
  unfold settle
  rw [drainTells_nil 64 ht]
  have agent : ∀ (l : List Vessel) (u : State), (l.foldl refreshSync u).agent = u.agent := by
    intro l
    induction l with
    | nil => intro u; rfl
    | cons v l ih => intro u; rw [List.foldl_cons, ih]; rfl
  refine (syncConditions_synced fun k => ?_).trans (refreshAll_loop _ _)
  rw [condCause_refreshAll, agent]
  exact h k

theorem condCause_portFreed (s : State) (k : Cond) : condCause (portFreed s) k = condCause s k := by cases k <;> rfl

/-- Settles O17. -/
theorem downstreamArbiterChooses : Obligations.DownstreamArbiterChooses := by
  refine ⟨fun s hm ht hp => ⟨_, exec_downstreamFrameSent hm, ?_⟩, fun s hm ht hp =>
    ⟨_, exec_downstreamFrameSent hm, ?_, fun hn hq => ?_, fun q rest hq => ⟨fun hi => ?_, fun one young => ?_⟩,
      fun empty hq hc => ?_⟩⟩
  · have nothing : frameSent s = s := by unfold frameSent; rw [hp]
    rw [nothing]
    exact settle_rest ht
  · rw [settle_works, frameSent_busy hp, works_of_bare (startNext_bare _)]
    rfl
  · have begun := startNext_transit (s := portFreed s) rfl hn (hq.elim .inl fun x => .inr (.inl x))
    rw [frameSent_busy hp, begun]
    exact ⟨settle_port nofun, settle_begun nofun ht⟩
  · have begun := startNext_insertion (s := portFreed s) rfl hq hi
    rw [frameSent_busy hp, begun]
    have port : (tellLeft q.owner (beginInsertion q rest (portFreed s))).loop.port = .sendingInsertion q.frame := by
      rw [tellLeft_loop]; rfl
    refine ⟨(settle_port (by rw [port]; nofun)).trans port, ⟨_, rfl, ?_⟩, fun hb hu => ?_⟩
    · cases q.owner <;> exact ⟨rfl, rfl, rfl, rfl, rfl⟩
    · have untold : tellLeft q.owner (beginInsertion q rest (portFreed s)) = beginInsertion q rest (portFreed s) := by
        cases ho : q.owner with
        | boilUnit => exact absurd ho hb
        | pitchUnit k => exact absurd ho (hu k)
        | agent | guardUnit | sequencer | castMeter => rfl
      rw [untold]
      exact settle_begun nofun ht
  · change (transitLeft s).length = 1 at one
    have begun := startNext_transit (s := portFreed s) rfl
      (fun e => by rw [show transitLeft s = [] from e] at one; cases one)
      (.inr (.inr fun x xs e => by rw [show (portFreed s).loop.queue = s.loop.queue from rfl, hq] at e; cases e; exact young))
    rw [frameSent_busy hp, begun]
    exact ⟨settle_port nofun, settle_begun nofun ht⟩
  · rw [frameSent_busy hp, startNext_nothing (s := portFreed s) empty hq,
      settle_synced (s := portFreed s) ht fun k => (hc k).trans (by rw [condCause_portFreed])]
    exact ⟨rfl, hq⟩

/-! ### Frames that go on (R10, R11) -/

/-- The frame last in the transit buffer, its hop count raised. -/
def transitJoined (f : Frame) (s : State) : State :=
  { s with loop := { s.loop with transit := s.loop.transit ++ [f.forwarded] } }

/-- A frame enters a transit buffer with room, and a free port begins it (R11). -/
theorem enterTransit_room (f : Frame) (ha : s.loop.port = .idle → s.loop.transit = [] ∧ s.loop.queue = [])
    (h : s.loop.transit.length < 2) :
    enterTransit f s = { s with loop := { s.loop with
      transit := s.loop.transit ++ [f.forwarded]
      port := if s.loop.port = .idle then .sendingTransit else s.loop.port } } := by
  unfold enterTransit
  rw [if_neg (by omega)]
  show startNext (transitJoined f s) = _
  by_cases idle : s.loop.port = .idle
  · obtain ⟨ht, hq⟩ := ha idle
    rw [startNext_transit (s := transitJoined f s) idle (by simp [transitJoined]) (.inl hq), if_pos idle]
    rfl
  · rw [startNext_busy (s := transitJoined f s) idle, if_neg idle]
    rfl

/-- A third frame in the transit buffer is a transit overrun (R11). -/
theorem enterTransit_overrun (f : Frame) (h : 2 ≤ s.loop.transit.length) : enterTransit f s = s.erred := by
  unfold enterTransit
  rw [if_pos h, frameError_eq_erred]

theorem transit_of_outer (h : t.outer = s.outer) : t.loop.transit = s.loop.transit := by
  show t.outer.loop.transit = s.outer.loop.transit
  rw [h]

@[simp] theorem deliverVessel_outer (r : Nat) (s : State) (v : Vessel) : (deliverVessel r s v).outer = s.outer := by
  unfold deliverVessel
  simp only
  split
  · split <;> split <;> simp
  · rfl

@[simp] theorem deliverSample_outer (r : Nat) (s : State) : (deliverSample r s).outer = s.outer := by
  unfold deliverSample
  rw [outer_of_works (castSample_works ..)]
  exact foldl_outer _ (deliverVessel_outer r) _ s

theorem takeItem_transit (a : Byte) (s : State) (i : SampleItem) : (takeItem a s i).loop.transit = s.loop.transit := by
  unfold takeItem
  split
  · rfl
  · split
    · rfl
    · split
      case h_1 | h_2 => rfl
      all_goals rw [transit_of_outer (settle_outer _), transit_of_outer (deliverSample_outer ..)]; rfl

theorem takeSample_transit (f : Frame) (s : State) : (takeSample f s).loop.transit = s.loop.transit := by
  unfold takeSample
  generalize (sampleItems f.payload).getD [] = l
  induction l generalizing s with
  | nil => rfl
  | cons i l ih => rw [List.foldl_cons, ih, takeItem_transit]

@[simp] theorem panelNotice_outer (v : Vessel) (r : Nat) (c : NoticeCode) (s : State) :
    (panelNotice v r c s).outer = s.outer := by
  cases c with
  | handRequest => exact handRequest_outer ..
  | autoRequest => exact autoRequest_outer ..
  | estop => exact estop_outer ..
  | continue_ => exact continueSeq_outer ..
  | strokeDone => rfl

@[simp] theorem takeNotice_outer (f : Frame) (s : State) : (takeNotice f s).outer = s.outer := by
  unfold takeNotice
  split
  · simp only
    split
    · exact panelNotice_outer ..
    · split
      · exact outer_of_works (strokeDone_works s)
      · rfl
    · rfl
  · rfl

/-- What the tap of a SAMPLE or a NOTICE does (R10). -/
def tapped (f : Frame) (s : State) : State := if f.kind = kindSample then takeSample f s else takeNotice f s

theorem tapped_transit (f : Frame) (s : State) : (tapped f s).loop.transit = s.loop.transit := by
  unfold tapped
  split
  · exact takeSample_transit f s
  · exact transit_of_outer (takeNotice_outer f s)

theorem tapped_cap (f : Frame) (h : Capacity s) : Capacity (tapped f s) := by
  unfold tapped
  split
  · exact takeSample_cap f h
  · exact takeNotice_cap f h

/-- The tap reads the kind, the source and the payload. -/
theorem tapped_congr {f g : Frame} (hk : g.kind = f.kind) (hs : g.source = f.source) (hp : g.payload = f.payload)
    (s : State) : tapped g s = tapped f s := by
  unfold tapped takeSample takeNotice
  rw [hk, hs, hp]

theorem forwardFrame_tapped {f : Frame} (h : f.kind = 0x01 ∨ f.kind = 0x03) (s : State) :
    forwardFrame f s = enterTransit f (tapped f s) := by
  unfold forwardFrame tapped
  obtain h | h := h
  · rw [if_pos (show f.kind = kindSample from h), if_pos (show f.kind = kindSample from h)]
  · have other : f.kind ≠ kindSample := by rw [h]; decide
    rw [if_neg other, if_neg other, if_pos (show f.kind = kindNotice from h)]

theorem consumeFrame_tapped {f : Frame} (h : f.kind = 0x01 ∨ f.kind = 0x03) (s : State) :
    consumeFrame f s = tapped f s := by
  unfold consumeFrame tapped
  obtain h | h := h
  · have other : f.kind ≠ kindManage := by rw [h]; decide
    rw [if_neg other, if_pos (show f.kind = kindSample from h), if_pos (show f.kind = kindSample from h)]
  · have notManage : f.kind ≠ kindManage := by rw [h]; decide
    have other : f.kind ≠ kindSample := by rw [h]; decide
    rw [if_neg notManage, if_neg other, if_neg other, if_pos (show f.kind = kindNotice from h)]

/-- A MANAGE, REPLY or REPORT, and a DRIVE the guard forwards, go straight on (R10, R44). -/
theorem forwardFrame_untapped {f : Frame}
    (h : f.kind = 0x10 ∨ f.kind = 0x11 ∨ f.kind = 0x12 ∨ (f.kind = 0x02 ∧ guardDecision s f = .forward)) :
    forwardFrame f s = enterTransit f s := by
  unfold forwardFrame
  obtain h | h | h | ⟨h, decided⟩ := h
  case inr.inr.inr =>
    rw [h, if_neg (by decide), if_neg (by decide), if_pos (show (0x02 : Byte) = kindDrive from rfl), guardFrame, decided]
  all_goals rw [h, if_neg (by decide), if_neg (by decide), if_neg (by decide)]

/-- Settles O15: the frames that go straight on, and those tapped first. -/
theorem framesForwarded : Obligations.FramesForwarded := by
  refine ⟨fun f s l g hs hd hh hk => ⟨fun room => ?_, fun full => ?_⟩,
    fun f g s l cap hf hg hk hs hd hh gk gs gp gh gd => ⟨tapped f s.heard, ?_, tapped_transit f s.heard, fun room => ?_,
      fun full => ?_⟩⟩
  · have run := exec_forwarded l g hs hh hd
    rw [forwardFrame_untapped (s := s.heard) hk, enterTransit_room (s := s.heard) f l.arbiter room] at run
    refine ⟨_, run, settle_rest l.tells, fun idle => ?_⟩
    rw [settle_port]
    · exact if_pos idle
    · show (if s.loop.port = .idle then _ else _) ≠ _
      rw [if_pos idle]; nofun
  · have run := exec_forwarded l g hs hh hd
    rw [forwardFrame_untapped (s := s.heard) hk, enterTransit_overrun (s := s.heard) f full] at run
    exact leaves_settled run l.tells
  · have run := exec_consumed l hg (by rw [gs]; exact hs) gh gd
    rw [consumeFrame_tapped (by rw [gk]; exact hk), tapped_congr gk gs gp] at run
    exact run
  · have heard : Capacity s.heard := restartLink_cap cap
    have run := exec_forwarded l hf hs hh hd
    have entered := enterTransit_room f (tapped_cap f heard).arbiter (by rw [tapped_transit]; exact room)
    rw [forwardFrame_tapped hk, entered] at run
    refine ⟨run, ?_, ?_⟩
    · rw [transit_of_outer (settle_outer _)]
      show (tapped f s.heard).loop.transit ++ _ = _
      rw [tapped_transit]
      rfl
    · have begun : (if (tapped f s.heard).loop.port = .idle then PortState.sendingTransit
          else (tapped f s.heard).loop.port) ≠ .idle := by
        split
        · nofun
        · assumption
      rw [settle_port begun]
      exact begun
  · have run := exec_forwarded l hf hs hh hd
    rw [forwardFrame_tapped hk, enterTransit_overrun f (by rw [tapped_transit]; exact full)] at run
    exact run

end Sys2Proof.Machine
end

section
/-! The Pitch Unit's laws (R129 to R137): the strokes due, the lag, the issue of a stroke, and what the stroke timer's
expiry makes of the pitch part. -/

namespace Sys2Proof.Machine

variable {s t : State}

/-! ### The strokes due and the lag (R130, R136) -/

/-- The two divisions of R130 are one, by the product. -/
theorem targetStrokes_eq (row : StrainRow) (rate gv : Nat) :
    targetStrokes row rate gv = gv * rate / (1000 * row.concentration * row.viability * row.stroke) :=
  Nat.div_div_eq_div_mul ..

theorem targetStrokes_bounds {row : StrainRow} (rate gv : Nat) (hc : 0 < row.concentration) (hv : 0 < row.viability)
    (hs : 0 < row.stroke) :
    targetStrokes row rate gv * (1000 * row.concentration * row.viability * row.stroke) ≤ gv * rate
    ∧ gv * rate < (targetStrokes row rate gv + 1) * (1000 * row.concentration * row.viability * row.stroke) := by
  have one : 0 < 1000 * row.concentration * row.viability * row.stroke := by positivity
  rw [targetStrokes_eq]
  exact ⟨Nat.div_mul_le_self .., Nat.lt_mul_of_div_lt (Nat.lt_succ_self _) one⟩

theorem PitchPart.testLag_of_lag {p : PitchPart} (limit : Nat) (h : p.pitchLag = true) :
    p.testLag limit = { p with pitchLag := decide (limit / 2 < p.lag) } := if_pos h

theorem PitchPart.testLag_above {p : PitchPart} {limit : Nat} (h : p.pitchLag = false) (hl : limit < p.lag) :
    p.testLag limit = { p with pitchLag := true, lagged := true } := by
  unfold PitchPart.testLag
  rw [h, if_neg (by decide), if_pos hl]

theorem PitchPart.testLag_below {p : PitchPart} {limit : Nat} (h : p.pitchLag = false) (hl : p.lag ≤ limit) :
    p.testLag limit = p := by
  unfold PitchPart.testLag
  rw [h, if_neg (by decide), if_neg (by omega)]

/-- The lag test changes nothing but its two flags. -/
theorem PitchPart.testLag_flags (p : PitchPart) (limit : Nat) :
    p.testLag limit = { p with pitchLag := (p.testLag limit).pitchLag, lagged := (p.testLag limit).lagged } := by
  unfold PitchPart.testLag
  split
  · rfl
  · split <;> rfl

theorem CastState.meters_iff (x : CastState) : x.meters = true ↔ x = .metering ∨ x = .paused ∨ x = .settling := by
  cases x <;> simp [CastState.meters]

theorem CastState.pitches_iff (x : CastState) :
    x.pitches = true ↔ x = .opening ∨ x = .metering ∨ x = .paused ∨ x = .settling := by
  cases x <;> simp [CastState.pitches]

/-- The cause of PITCH_LAG (R136). -/
theorem condCause_pitchLag (s : State) :
    condCause s .pitchLag = true ↔ ∃ c p, s.castMeter.record = some c ∧ c.pitch = some p ∧ p.pitchLag = true
      ∧ (c.state = .metering ∨ c.state = .paused ∨ c.state = .settling) := by
  show (s.castMeter.record.any fun c => c.state.meters && c.pitch.any PitchPart.pitchLag) = true ↔ _
  simp only [Option.any_eq_true, Bool.and_eq_true, CastState.meters_iff]
  constructor
  · rintro ⟨c, hc, hm, p, hp, hl⟩
    exact ⟨c, p, hc, hp, hl, hm⟩
  · rintro ⟨c, p, hc, hp, hl, hm⟩
    exact ⟨c, hc, hm, p, hp, hl⟩

/-! ### The issue of a stroke (R131, R15) -/

theorem castMeter_of_bare (h : t.bare = s.bare) : t.castMeter = s.castMeter := by
  show t.bare.castMeter = s.bare.castMeter
  rw [h]

theorem fit_of_lt {w n : Nat} (h : n < 2 ^ w) : fit w n = n := if_pos h

/-- An earlier dose DRIVE of the unit waits for the point. -/
theorem doseQueued_iff (s : State) :
    doseQueued s = true ↔ ∃ d, point? s.tables (lineRow s.tables).dose = some d ∧
      ∃ q ∈ s.loop.queue, (∃ k, q.owner = .pitchUnit k) ∧ samePoint (driveFrame s d 1000) q.frame = true := by
  have unit : ∀ o : Owner, o.isPitchUnit = true ↔ ∃ k, o = .pitchUnit k := by
    intro o
    cases o <;> simp [Owner.isPitchUnit]
  simp only [doseQueued, Option.any_eq_true, List.any_eq_true, Bool.and_eq_true, unit]

/-- The conditions of a stroke (R131), with no earlier frame of the unit queued (R15). -/
theorem mayIssue_iff (s : State) (c : Cast) (p : PitchPart) :
    mayIssue s c p = true ↔
      ((c.state = .metering ∨ c.state = .paused ∨ (c.state = .settling ∧ c.settleOver = false))
        ∧ p.outstanding = false ∧ p.issued < p.target ∧ p.dosingFailed = false ∧ p.frameQueued = false
        ∧ s.vessels.whirlpool.authority = .auto) ∧ doseQueued s = false := by
  simp only [mayIssue, Bool.and_eq_true, Bool.or_eq_true, beq_iff_eq, Bool.not_eq_true', decide_eq_true_eq]
  simp only [PerVessel.get, or_assoc]
  tauto

/-- The part with its stroke issued, or its offer refused, by the offer's outcome (R131). -/
def PitchPart.tried (now : LoopTime) (r : OfferResult) (p : PitchPart) : PitchPart :=
  match r with
  | .noPoint => p
  | .refused => { p with unsent := true }
  | .queued => p.issue now false
  | .begun => p.issue now true

/-- A change that leaves the pitch part as it was leaves the state as it was. -/
theorem withPitch_same (s : State) : withPitch (fun p => p) s = s := by
  have same : (fun c : Cast => { c with pitch := c.pitch.map fun p => p }) = id := by
    funext c
    rw [Option.map_id']
    rfl
  unfold withPitch withCast
  rw [same, Option.map_id]
  rfl

section
variable {c : Cast} {p : PitchPart} (hc : s.castMeter.record = some c) (hp : c.pitch = some p)
include hc hp

theorem withPitch_castMeter (f : PitchPart → PitchPart) :
    (withPitch f s).castMeter = ({ s.castMeter with record := some { c with pitch := some (f p) } } : CastMeter) := by
  have record : (withPitch f s).castMeter.record = s.castMeter.record.map fun c => { c with pitch := c.pitch.map f } := rfl
  rw [hc, Option.map_some, hp, Option.map_some] at record
  rw [← record]
  rfl

theorem tryIssue_held (h : mayIssue s c p = false) : tryIssue s = s := by
  unfold tryIssue
  simp only [hc, hp, h, Bool.false_eq_true, if_false]

/-- A try that may issue offers the stroke's DRIVE, and the part takes the outcome. -/
theorem tryIssue_tries (h : mayIssue s c p = true) :
    tryIssue s = withPitch (PitchPart.tried s.loopTime (offerDrive (lineRow s.tables).dose 1000 (.pitchUnit c.number) s).1)
      (offerDrive (lineRow s.tables).dose 1000 (.pitchUnit c.number) s).2 := by
  unfold tryIssue
  simp only [hc, hp, h, if_true]
  cases offerDrive (lineRow s.tables).dose 1000 (.pitchUnit c.number) s with
  | mk r u =>
    cases r with
    | noPoint => exact (withPitch_same u).symm
    | refused | queued | begun => rfl

/-- No stroke is issued without a valid dose point (R131). -/
theorem tryIssue_noPoint (h : point? s.tables (lineRow s.tables).dose = none) : tryIssue s = s := by
  cases may : mayIssue s c p with
  | false => exact tryIssue_held hc hp may
  | true =>
    rw [tryIssue_tries hc hp may]
    unfold offerDrive
    rw [h]
    exact withPitch_same s

/-- With a valid dose point a try that may issue makes the offer's outcome the part's (R131). -/
theorem tryIssue_offers {d : PointRow} (hd : point? s.tables (lineRow s.tables).dose = some d)
    (may : mayIssue s c p = true) :
    let sent := offer (driveFrame s d 1000) (.pitchUnit c.number) s
    tryIssue s = { sent.2 with castMeter := { s.castMeter with
      record := some { c with pitch := some (PitchPart.tried s.loopTime sent.1 p) } } } := by
  intro sent
  have offered : offerDrive (lineRow s.tables).dose 1000 (.pitchUnit c.number) s = sent := by
    unfold offerDrive
    rw [hd]
  have kept : sent.2.castMeter = s.castMeter := castMeter_of_bare (offer_bare ..)
  have part := withPitch_castMeter (s := sent.2) (by rw [kept]; exact hc) hp (PitchPart.tried s.loopTime sent.1)
  rw [kept] at part
  rw [tryIssue_tries hc hp may, offered, ← part]
  rfl

end

/-! ### After the expiry (R134, R135) -/

/-- What the unit goes on to do with a part whose stroke has been given up: the counts stay, and at most one stroke
more is issued, by a part that may still dose. -/
structure PitchPart.GoesOn (s : State) (p r : PitchPart) : Prop where
  unconfirmed : r.unconfirmed = p.unconfirmed
  consecutive : r.consecutive = p.consecutive
  confirmed : r.confirmed = p.confirmed
  target : r.target = p.target
  dosingFailed : r.dosingFailed = p.dosingFailed
  strokes : (r.issued = p.issued ∧ r.outstanding = false ∧ r.strokeTimer = none)
    ∨ (r.issued = p.issued + 1 ∧ r.outstanding = true ∧ p.issued < p.target ∧ p.dosingFailed = false
        ∧ s.vessels.whirlpool.authority = .auto)

/-- The cast of a number goes on from the pitch part `p`, with the rest of the part as it was in `s`. -/
structure Doses (s : State) (n : Nat) (p : PitchPart) (t : State) : Prop where
  works : t.works = s.works
  part : ∃ d r, t.castMeter.record = some d ∧ d.number = n ∧ d.pitch = some r ∧ p.GoesOn s r

variable {n : Nat} {p : PitchPart} {u : State}

theorem Doses.of_record (h : Doses s n p t) (hw : u.works = t.works) (hr : u.castMeter.record = t.castMeter.record) :
    Doses s n p u :=
  ⟨hw.trans h.works, by rw [hr]; exact h.part⟩

theorem Doses.of_bare (h : Doses s n p t) (hb : u.bare = t.bare) : Doses s n p u :=
  h.of_record (works_of_bare hb) (by rw [castMeter_of_bare hb])

theorem Doses.raiseCast (k : EventKind) (a : EventArg) (h : Doses s n p t) : Doses s n p (raiseCast k a t) :=
  h.of_bare (raiseCast_bare ..)

/-- A change of the cast that keeps its number and its pitch part. -/
theorem Doses.withCast {f : Cast → Cast} (h : Doses s n p t) (hf : ∀ c, (f c).number = c.number ∧ (f c).pitch = c.pitch) :
    Doses s n p (withCast f t) := by
  obtain ⟨d, r, hd, number, hr, goes⟩ := h.part
  refine ⟨h.works, f d, r, ?_, (hf d).1.trans number, (hf d).2.trans hr, goes⟩
  rw [withCast_castMeter, hd]
  rfl

/-- A change of the pitch part. -/
theorem Doses.withPitch {f : PitchPart → PitchPart} (h : Doses s n p t)
    (hf : ∀ d r, t.castMeter.record = some d → d.pitch = some r → p.GoesOn s r → p.GoesOn s (f r)) :
    Doses s n p (withPitch f t) := by
  obtain ⟨d, r, hd, number, hr, goes⟩ := h.part
  exact ⟨h.works, { d with pitch := some (f r) }, f r, by rw [withPitch_castMeter hd hr], number, rfl, hf d r hd hr goes⟩

theorem drivePump_record (d : Nat) (s : State) : (drivePump d s).castMeter.record = s.castMeter.record := by
  have kept := castMeter_of_bare (offerDrive_bare (lineRow s.tables).pump d .castMeter s)
  have record : (offerDrive (lineRow s.tables).pump d .castMeter s).2.castMeter.record = s.castMeter.record := by rw [kept]
  exact record

theorem Doses.drivePump (d : Nat) (h : Doses s n p t) : Doses s n p (drivePump d t) :=
  h.of_record (drivePump_works ..) (drivePump_record ..)

theorem Doses.pausedEntry (h : Doses s n p t) : Doses s n p (pausedEntry t) := by
  unfold Machine.pausedEntry
  split
  · apply Doses.raiseCast
    exact (h.drivePump 0).withCast fun _ => ⟨rfl, rfl⟩
  · exact h

theorem Doses.reviewPauses (h : Doses s n p t) : Doses s n p (reviewPauses t) := by
  unfold Machine.reviewPauses
  split
  · exact h
  · rename_i c _
    have noted : Doses s n p (Machine.withCast (fun c' => { c' with pauses := nextPauses t c }) t) :=
      h.withCast fun _ => ⟨rfl, rfl⟩
    cases c.state with
    | opening | settling => exact noted
    | charging | closed => exact h
    | metering =>
      simp only
      split
      · exact noted
      · exact noted.pausedEntry
    | paused =>
      simp only
      split
      · apply Doses.raiseCast
        apply Doses.drivePump
        exact noted.withCast fun _ => ⟨rfl, rfl⟩
      · exact noted

theorem Doses.testLag (h : Doses s n p t) : Doses s n p (testLag t) := by
  refine Doses.reviewPauses (h.withPitch fun _ r _ _ g => ?_)
  rw [PitchPart.testLag_flags]
  exact ⟨g.unconfirmed, g.consecutive, g.confirmed, g.target, g.dosingFailed, g.strokes⟩

theorem vessels_of_works (h : t.works = s.works) : t.vessels = s.vessels := by
  show t.works.vessels = s.works.vessels
  rw [h]

/-- A part with nothing outstanding and a stroke due issues it, or its offer is refused. -/
theorem PitchPart.GoesOn.tried {r : PitchPart} (g : p.GoesOn s r) (room : p.issued + 1 < 2 ^ 64)
    (free : r.outstanding = false) (due : r.issued < r.target) (dosing : r.dosingFailed = false)
    (auto : s.vessels.whirlpool.authority = .auto) (now : LoopTime) (o : OfferResult) :
    p.GoesOn s (PitchPart.tried now o r) := by
  obtain ⟨same, none, stopped⟩ | ⟨_, out, _⟩ := g.strokes
  · rw [g.target] at due
    have issues : ∀ begun, p.GoesOn s (r.issue now begun) := fun begun =>
      ⟨g.unconfirmed, g.consecutive, g.confirmed, g.target, g.dosingFailed,
        .inr ⟨by rw [← same]; exact fit_of_lt (by rw [same]; exact room), rfl, by rw [← same]; exact due,
          by rw [← g.dosingFailed]; exact dosing, auto⟩⟩
    cases o with
    | noPoint => exact g
    | refused => exact ⟨g.unconfirmed, g.consecutive, g.confirmed, g.target, g.dosingFailed, .inl ⟨same, none, stopped⟩⟩
    | queued | begun => exact issues _
  · rw [out] at free; cases free

theorem Doses.tryIssue (h : Doses s n p t) (room : p.issued + 1 < 2 ^ 64) : Doses s n p (tryIssue t) := by
  obtain ⟨d, r, hd, _, hr, _⟩ := h.part
  cases may : mayIssue t d r with
  | false => rw [tryIssue_held hd hr may]; exact h
  | true =>
    obtain ⟨⟨_, free, due, dosing, _, auto⟩, _⟩ := (mayIssue_iff t d r).1 may
    rw [vessels_of_works h.works] at auto
    have offered : Doses s n p (offerDrive (lineRow t.tables).dose 1000 (.pitchUnit d.number) t).2 :=
      h.of_bare (offerDrive_bare ..)
    rw [tryIssue_tries hd hr may]
    refine offered.withPitch fun d' r' hd' hr' g => ?_
    rw [castMeter_of_bare (offerDrive_bare ..), hd] at hd'
    cases hd'
    rw [hr] at hr'
    cases hr'
    exact g.tried room free due dosing auto ..

theorem Doses.doseFrameLeft (k : Nat) (h : Doses s n p t) (room : p.issued + 1 < 2 ^ 64) :
    Doses s n p (doseFrameLeft k t) := by
  unfold Machine.doseFrameLeft
  simp only
  split
  · refine Doses.tryIssue (h.withPitch fun _ r _ _ g => ?_) room
    refine ⟨g.unconfirmed, g.consecutive, g.confirmed, g.target, g.dosingFailed, g.strokes.imp (fun x => ?_) id⟩
    obtain ⟨same, none, stopped⟩ := x
    exact ⟨same, none, by simp only [none, Bool.false_eq_true, if_false]; exact stopped⟩
  · exact h.tryIssue room

theorem offerAddition_bare (e : SendEntry) (s : State) : (offerAddition e s).2.bare = s.bare := by
  unfold offerAddition
  split
  · split
    · exact offer_bare ..
    · rfl
  · rfl

theorem recordMissed_castMeter (n i : Nat) (c : MissCause) (s : State) : (recordMissed n i c s).castMeter = s.castMeter :=
  (castMeter_of_bare (raiseBoil_bare ..) : (recordMissed n i c s).castMeter = (withBoilRecord n _ s).castMeter)

theorem recordFired_castMeter (n i : Nat) (s : State) : (recordFired n i s).castMeter = s.castMeter :=
  (castMeter_of_bare (raiseBoil_bare ..) : (recordFired n i s).castMeter = (withBoilRecord n _ s).castMeter)

/-- The Boil Unit's sending leaves the cast alone. -/
theorem pumpSend_castMeter (k : Nat) (s : State) : (pumpSend k s).castMeter = s.castMeter := by
  induction k generalizing s with
  | zero => rfl
  | succ k ih =>
    unfold pumpSend
    split
    · rfl
    · split
      · rfl
      · rename_i e _ _
        split
        · rw [ih]; rfl
        · have offered := castMeter_of_bare (offerAddition_bare e s)
          split <;> (rename_i eq; rw [eq] at offered)
          · rw [ih, recordMissed_castMeter]; exact offered
          · exact offered
          · rw [recordFired_castMeter]; exact offered
          · rw [ih, recordFired_castMeter]; exact offered

theorem boilFrameLeft_castMeter (s : State) : (boilFrameLeft s).castMeter = s.castMeter := pumpSend_castMeter ..

theorem Doses.drainTells (k : Nat) (h : Doses s n p t) (room : p.issued + 1 < 2 ^ 64) :
    Doses s n p (drainTells k t) := by
  induction k generalizing t with
  | zero => exact h
  | succ k ih =>
    unfold Machine.drainTells
    split
    · exact h
    · rename_i o rest _
      have told : Doses s n p { t with tells := rest } := h.of_bare rfl
      apply ih
      cases o with
      | boilUnit => exact told.of_record (boilFrameLeft_works _) (by rw [boilFrameLeft_castMeter])
      | pitchUnit c => exact told.doseFrameLeft c room
      | agent | guardUnit | sequencer | castMeter => exact told

theorem refreshAll_castMeter (l : List Vessel) (s : State) : (l.foldl refreshSync s).castMeter = s.castMeter := by
  have kept := congrArg State.castMeter (refreshAll_rest l s)
  exact kept

theorem Doses.settle (h : Doses s n p t) (room : p.issued + 1 < 2 ^ 64) : Doses s n p (settle t) := by
  have drained := h.drainTells 64 room
  have refreshed : Doses s n p (vessels.foldl refreshSync (Machine.drainTells 64 t)) :=
    drained.of_record (works_of_rest (refreshAll_rest ..)) (by rw [refreshAll_castMeter])
  exact (refreshed.of_bare (syncConditions_bare _)).of_bare rfl

/-- A CAST_CLOSE record's offer leaves the cast as it is. -/
theorem offerClose_record (d : Draft) (s : State) : (offerClose d s).castMeter.record = s.castMeter.record := by
  unfold offerClose
  split
  · rename_i t h
    have kept : t.castMeter.record = s.castMeter.record := by
      unfold offerRecord at h
      split at h
      · cases h; rfl
      · cases h
    simp only
    split
    · split <;> exact kept
    all_goals exact kept
  · rfl

/-- The entry to CHARGING closes the cast's record (R125). -/
theorem enterCharging_record {c : Cast} (h : s.castMeter.record = some c) :
    (enterCharging s).castMeter.record = some (c.charging s) := by
  unfold enterCharging
  simp only [h]
  rw [offerClose_record, withCast_castMeter, h]
  rfl

/-- The entry to CHARGING completes the part, once no stroke is outstanding (R137, R138). -/
theorem Doses.maybeCharge (h : Doses s n p t) : Doses s n p (maybeCharge t) := by
  obtain ⟨d, r, hd, number, hr, g⟩ := h.part
  unfold Machine.maybeCharge
  simp only [hd]
  split
  · rename_i ready
    obtain ⟨_, _, none⟩ := ready
    have free : r.outstanding = false := by
      simpa only [strokeOutstanding, pitch?, hd, Option.bind_some, hr, Option.any_some] using none
    have completed : (d.charging t).pitch = some r.complete := by
      show d.pitch.map PitchPart.complete = _
      rw [hr]
      rfl
    refine ⟨(enterCharging_works t).trans h.works, _, _, enterCharging_record hd, number, completed,
      g.unconfirmed, g.consecutive, g.confirmed, g.target, g.dosingFailed, g.strokes.imp (fun x => ?_) id⟩
    obtain ⟨same, none, _⟩ := x
    exact ⟨same, none, rfl⟩
  · exact h

/-- The part once the expiry has given its stroke up and counted it against the failure limit (R134, R135). -/
def PitchPart.timedOut (limit : Nat) (p : PitchPart) : PitchPart :=
  { p.giveUp with
    consecutive := p.consecutive + 1
    dosingFailed := p.dosingFailed || decide (p.consecutive + 1 = limit) }

/-- The state once the stroke of a part is given up and counted, with DOSE_TIMEOUT (R134). -/
def strokeGivenUp (p : PitchPart) (s : State) : State :=
  raiseCast .doseTimeout (.num (p.consecutive + 1))
    (withPitch (fun q => { q.giveUp with consecutive := p.consecutive + 1 }) s)

theorem strokeGivenUp_works (p : PitchPart) (s : State) : (strokeGivenUp p s).works = s.works :=
  (raiseCast_works ..).trans (withPitch_works ..)

theorem tables_of_works (h : t.works = s.works) : t.tables = s.tables := by
  show t.works.tables = s.works.tables
  rw [h]

theorem strokeTimeoutPart_eq (h : pitch? s = some p) :
    strokeTimeoutPart s = tryIssue (testLag (if p.consecutive + 1 = (lineRow s.tables).failureLimit then
      reviewPauses (withPitch (fun q => { q with dosingFailed := true }) (strokeGivenUp p s)) else strokeGivenUp p s)) := by
  rw [← tables_of_works (strokeGivenUp_works p s)]
  unfold strokeTimeoutPart
  simp only [h]
  rfl

theorem Doses.start {c : Cast} (hw : t.works = s.works) (hr : t.castMeter.record = some { c with pitch := some p })
    (free : p.outstanding = false) (stopped : p.strokeTimer = none) : Doses s c.number p t :=
  ⟨hw, _, p, hr, rfl, rfl, ⟨rfl, rfl, rfl, rfl, rfl, .inl ⟨rfl, free, stopped⟩⟩⟩

section
variable {c : Cast} (hc : s.castMeter.record = some c) (hp : c.pitch = some p) (room : p.issued + 1 < 2 ^ 64)
include hc hp room

theorem strokeTimeoutPart_doses :
    Doses s c.number (p.timedOut (lineRow s.tables).failureLimit) (strokeTimeoutPart s) := by
  have part : pitch? s = some p := by unfold pitch?; rw [hc]; exact hp
  have works := strokeGivenUp_works p s
  have record : (strokeGivenUp p s).castMeter.record
      = some { c with pitch := some { p.giveUp with consecutive := p.consecutive + 1 } } := by
    unfold strokeGivenUp
    rw [castMeter_of_bare (raiseCast_bare ..), withPitch_castMeter hc hp]
  rw [strokeTimeoutPart_eq part]
  refine Doses.tryIssue (Doses.testLag ?_) room
  split
  · rename_i last
    refine Doses.reviewPauses (Doses.start works ?_ rfl rfl)
    rw [withPitch_castMeter record rfl, PitchPart.timedOut, decide_eq_true last, Bool.or_true]
  · rename_i more
    refine Doses.start works ?_ rfl rfl
    rw [record, PitchPart.timedOut, decide_eq_false more, Bool.or_false]
    rfl

theorem strokeTimeout_doses :
    Doses s c.number (p.timedOut (lineRow s.tables).failureLimit) (settle (strokeTimeout s)) :=
  (strokeTimeoutPart_doses hc hp room).maybeCharge.settle room

omit room in
theorem strokeDue_iff {start : LoopTime} (ht : p.strokeTimer = some start)
    (state : c.state = .opening ∨ c.state = .metering ∨ c.state = .paused ∨ c.state = .settling) :
    strokeDue s = true ↔ (lineRow s.tables).strokeTimeout ≤ (s.loopTime - start).toNat := by
  have pitching := (CastState.pitches_iff c.state).2 state
  unfold strokeDue
  rw [hc, Option.any_some, pitching, hp, Option.any_some, ht, Bool.true_and]
  exact decide_eq_true_iff

end

/-- No earlier dose DRIVE of the unit waits for a valid dose point (R15). -/
theorem doseQueued_eq_false_iff {d : PointRow} (hd : point? s.tables (lineRow s.tables).dose = some d) :
    doseQueued s = false ↔ ∀ q ∈ s.loop.queue, (∃ k, q.owner = .pitchUnit k) →
      ¬(q.frame.kind = 0x02 ∧ q.frame.dest = (driveFrame s d 1000).dest
        ∧ q.frame.payload.head? = (driveFrame s d 1000).payload.head?) := by
  have same : ∀ f : Frame, samePoint (driveFrame s d 1000) f = true ↔ f.kind = 0x02
      ∧ f.dest = (driveFrame s d 1000).dest ∧ f.payload.head? = (driveFrame s d 1000).payload.head? :=
    fun f => (samePoint_iff _ f).trans (and_iff_right rfl)
  rw [← Bool.not_eq_true, doseQueued_iff]
  constructor
  · exact fun h q hq owned x => h ⟨d, hd, q, hq, owned, (same _).2 x⟩
  · rintro h ⟨d', hd', q, hq, owned, x⟩
    cases hd.symm.trans hd'
    exact h q hq owned ((same _).1 x)

/-- The issue of a stroke by the outcome of its offer (R131). -/
theorem tryIssue_outcomes {c : Cast} (hc : s.castMeter.record = some c) (hp : c.pitch = some p)
    (room : p.issued + 1 < 2 ^ 64) {d : PointRow} (hd : point? s.tables (lineRow s.tables).dose = some d)
    (may : mayIssue s c p = true) :
    let becomes := fun (u : State) (q : PitchPart) =>
      ({ u with castMeter := { s.castMeter with record := some { c with pitch := some q } } } : State)
    let sent := offer (driveFrame s d 1000) (.pitchUnit c.number) s
    let issued := { p with issued := p.issued + 1, outstanding := true, unsent := false }
    (sent.1 = .refused → tryIssue s = becomes sent.2 { p with unsent := true })
    ∧ (sent.1 = .queued → tryIssue s = becomes sent.2 { issued with frameQueued := true })
    ∧ (sent.1 = .begun → tryIssue s = becomes sent.2
        { issued with frameQueued := false, strokeTimer := some s.loopTime }) := by
  intro becomes sent issued
  have run : tryIssue s = becomes sent.2 (PitchPart.tried s.loopTime sent.1 p) := tryIssue_offers hc hp hd may
  refine ⟨fun e => ?_, fun e => ?_, fun e => ?_⟩
  · rw [run, e]; rfl
  · rw [run, e, PitchPart.tried, PitchPart.issue, fit_of_lt room]; rfl
  · rw [run, e, PitchPart.tried, PitchPart.issue, fit_of_lt room]; rfl

/-- Settles O45. -/
theorem strokeTimerExpires : Obligations.StrokeTimerExpires := by
  refine ⟨fun row rate gv hc hv hs => targetStrokes_bounds rate gv hc hv hs, fun p limit => ⟨p.testLag_flags limit,
      fun h hl => ?_, fun h hl => PitchPart.testLag_below h hl, fun h => ?_⟩, condCause_pitchLag,
    fun c p s hc hp room => ⟨fun stopped => ?_, fun d may hd free => ?_⟩,
    fun c p start s hm _ hc hp _ ht state fitU fitI => ⟨fun early => ?_, fun late => ?_⟩⟩
  · rw [PitchPart.testLag_above h hl]; exact ⟨rfl, rfl⟩
  · rw [PitchPart.testLag_of_lag limit h]; exact ⟨rfl, decide_eq_true_iff⟩
  · cases may : mayIssue s c p with
    | false => exact tryIssue_held hc hp may
    | true =>
      obtain ⟨conditions, unqueued⟩ := (mayIssue_iff s c p).1 may
      cases hd : point? s.tables (lineRow s.tables).dose with
      | none => exact tryIssue_noPoint hc hp hd
      | some d =>
        obtain held | queued := stopped
        · exact absurd conditions held
        · exact absurd ((doseQueued_eq_false_iff hd).1 unqueued) (queued d hd)
  · have issues := (mayIssue_iff s c p).2 ⟨may, (doseQueued_eq_false_iff hd).2 free⟩
    exact tryIssue_outcomes hc hp room hd issues
  · have notDue : strokeDue s = false := by
      rw [← Bool.not_eq_true, strokeDue_iff hc hp ht state]
      exact Nat.not_le.2 early
    show execStrokeTimerExpiry s = _
    rw [execStrokeTimerExpiry, notDue]
    rfl
  · have due := (strokeDue_iff hc hp ht state).2 late
    have run : exec .strokeTimerExpiry s = .next (settle (strokeTimeout s)) := by
      show execStrokeTimerExpiry s = _
      rw [execStrokeTimerExpiry, due, if_pos rfl, whenActive, if_pos hm]
    obtain ⟨works, d, r, hd, number, hr, g⟩ := strokeTimeout_doses hc hp fitI
    refine ⟨_, d, r, run, works, hd, number, hr, g.unconfirmed.trans (fit_of_lt fitU), g.consecutive, g.confirmed,
      g.target, ?_, g.strokes.imp id fun x => ?_⟩
    · rw [g.dosingFailed, PitchPart.timedOut, Bool.or_eq_true, decide_eq_true_iff]
    · obtain ⟨issued, out, more, dosing, auto⟩ := x
      exact ⟨issued, out, more, g.dosingFailed.trans dosing, auto⟩

end Sys2Proof.Machine
end

section
/-! What becomes of the sequencers when one of them begins a step, goes on, suspends or resumes (R76 to R79): the others
stay as they are, no authority changes, the causes are those that hold, and with no cause a sequencer under way stays
under way. -/

namespace Sys2Proof.Machine

variable {s t u : State} {v w : Vessel}

/-! ### A sequencer's seat -/

/-- Of a sequencer and its vessel what suspension turns on: the state, the place in the list, the causes, and the
vessel's authority and supervisor lock. -/
structure Seat where
  state    : SeqState
  position : Option Nat
  list     : Option Nat
  causes   : Causes
  rule     : VesselRec

def Seat.of (q : Sequencer) (r : VesselRec) : Seat :=
  { state := q.state, position := q.position, list := q.list, causes := q.causes, rule := r.ruled }

def State.seat (s : State) (v : Vessel) : Seat := Seat.of (s.seqs.get v) (s.vessels.get v)

/-- A sequencer under way (R75). -/
def Seat.Going (x : Seat) : Prop := x.state = .running ∨ x.state = .blocked

theorem seat_of_works (h : t.works = s.works) : t.seat = s.seat := by
  have same : ∀ u : State, u.works.seat = u.seat := by
    intro u
    funext v
    cases v <;> rfl
  rw [← same t, h, same]

theorem seat_of_bare (h : t.bare = s.bare) : t.seat = s.seat := seat_of_works (works_of_bare h)

theorem withSeq_seat_same (f : Sequencer → Sequencer) :
    (withSeq v f s).seat v = Seat.of (f (s.seqs.get v)) (s.vessels.get v) := by
  rw [State.seat, withSeq_seqs, PerVessel.get_set_same, withSeq_vessels]

theorem withSeq_seat_other (f : Sequencer → Sequencer) (h : w ≠ v) : (withSeq v f s).seat w = s.seat w := by
  rw [State.seat, withSeq_seqs, PerVessel.get_set_other _ _ h]
  rfl

/-- A change of a sequencer that its seat does not show. -/
theorem withSeq_seat {f : Sequencer → Sequencer} (h : ∀ q r, Seat.of (f q) r = Seat.of q r := by intros; rfl) :
    (withSeq v f s).seat = s.seat := by
  funext w
  by_cases e : w = v
  · rw [e, withSeq_seat_same, h]; rfl
  · exact withSeq_seat_other f e

/-- A change of a vessel that touches neither its authority nor its supervisor lock. -/
theorem withVessel_seat {f : VesselRec → VesselRec} (h : ∀ r, (f r).ruled = r.ruled := by intros; rfl) :
    (withVessel v f s).seat = s.seat := by
  funext w
  by_cases e : w = v
  · rw [e, State.seat, withVessel_vessels, PerVessel.get_set_same, Seat.of, h]; rfl
  · rw [State.seat, withVessel_vessels, PerVessel.get_set_other _ _ e]; rfl

@[simp] theorem raiseVessel_seat (k : EventKind) (v : Vessel) (a : EventArg) (s : State) :
    (raiseVessel k v a s).seat = s.seat := seat_of_works (raiseVessel_works ..)
@[simp] theorem offerDrive_seat (r d : Nat) (o : Owner) (s : State) : (offerDrive r d o s).2.seat = s.seat :=
  seat_of_works (offerDrive_works ..)
@[simp] theorem boilPump_seat (s : State) : (boilPump s).seat = s.seat := seat_of_works (boilPump_works ..)
@[simp] theorem boilAfresh_seat (s : State) : (boilAfresh s).seat = s.seat := rfl
@[simp] theorem withBrew_seat (n : Nat) (f : Brew → Brew) (s : State) : (withBrew n f s).seat = s.seat := rfl
@[simp] theorem leaveConds_seat (s : State) : (leaveConds s).seat = s.seat := rfl
@[simp] theorem settle_seat (s : State) : (settle s).seat = s.seat := seat_of_works (settle_works s)

@[simp] theorem emptySlots_seat (p : Hold → Bool) (s : State) : (emptySlots p s).seat = s.seat := by
  have one : ∀ (i : Nat) (s : State), (emptySlot p s i).seat = s.seat := by
    intro i s
    unfold emptySlot
    split
    · split
      · exact raiseVessel_seat ..
      · rfl
    · rfl
  unfold emptySlots
  generalize [0, 1, 2, 3] = l
  induction l generalizing s with
  | nil => rfl
  | cons i l ih => rw [List.foldl_cons, ih, one]

@[simp] theorem slotsAtStepEnd_seat (v : Vessel) (n : Nat) (s : State) : (slotsAtStepEnd v n s).seat = s.seat :=
  emptySlots_seat ..
@[simp] theorem slotsAtStepBegin_seat (v : Vessel) (s : State) : (slotsAtStepBegin v s).seat = s.seat :=
  emptySlots_seat ..

/-! ### Drives move no sequencer (R74, R93, R94) -/

@[simp] theorem seqOffer_seat (v : Vessel) (u : UnsentOffer) (s : State) : (seqOffer v u s).2.seat = s.seat := by
  rw [seqOffer_eq]
  exact Eq.trans withSeq_seat (offerDrive_seat ..)

@[simp] theorem stepDrive_seat (v : Vessel) (u : UnsentOffer) (s : State) : (stepDrive v u s).2.seat = s.seat := by
  rw [stepDrive_eq]
  simp only
  split
  · exact Eq.trans withSeq_seat (seqOffer_seat ..)
  · exact seqOffer_seat ..

@[simp] theorem transferDrive_seat (v : Vessel) (r : Option Nat) (d : Nat) (s : State) :
    (transferDrive v r d s).seat = s.seat := by
  unfold transferDrive
  split
  · exact stepDrive_seat ..
  · rfl

@[simp] theorem transferOn_seat (v : Vessel) (st : StepRow) (s : State) : (transferOn v st s).seat = s.seat := by
  simp [transferOn]
@[simp] theorem transferOff_seat (v : Vessel) (st : StepRow) (s : State) : (transferOff v st s).seat = s.seat := by
  simp [transferOff]

@[simp] theorem offerHeat_seat (v : Vessel) (d : Nat) (s : State) : (offerHeat v d s).seat = s.seat := by
  have noted : (withSeq v (fun q => { q with lastDemand := d }) s).seat = s.seat := withSeq_seat
  unfold offerHeat
  simp only
  split
  · split
    · exact Eq.trans withSeq_seat ((seqOffer_seat ..).trans noted)
    · exact (seqOffer_seat ..).trans noted
  · exact noted

@[simp] theorem forceZero_seat (v : Vessel) (s : State) : (forceZero v s).seat = s.seat := by
  unfold forceZero
  split
  · exact (offerHeat_seat ..).trans (withSeq_seat)
  · rfl

@[simp] theorem offerStepFrame_seat (v : Vessel) (st : StepRow) (s : State) :
    (offerStepFrame v st s).2.seat = s.seat := by
  unfold offerStepFrame
  split
  · rename_i row _
    exact stepDrive_seat v { row := row, demand := st.value, ofStep := true } s
  · exact withSeq_seat

@[simp] theorem endStep_seat (v : Vessel) (s : State) : (endStep v s).seat = s.seat := by
  have unlocked : (withVessel v (fun r => { r with stepLock := false }) s).seat = s.seat := withVessel_seat
  unfold endStep
  simp only
  split
  · exact (slotsAtStepEnd_seat ..).trans unlocked
  · exact unlocked

@[simp] theorem finishStep_seat (v : Vessel) (s : State) : (finishStep v s).seat = s.seat := by
  unfold finishStep
  simp only
  split <;> simp

/-! ### The causes that hold (R76) -/

theorem causesNow_any_iff (s : State) (v : Vessel) : (causesNow s v).any = true ↔ Suspending s v := by
  simp [Causes.any, causesNow, Suspending, or_assoc]

/-- The causes turn on the outer state and the vessel's authority alone. -/
theorem causesNow_congr (ho : t.outer = s.outer) (hr : (t.seat v).rule = (s.seat v).rule) :
    causesNow t v = causesNow s v := by
  have parts : ∀ u : State, causesNow u v
      = { causesNow u.outer v with hand := (u.seat v).rule.authority == .hand } := fun _ => rfl
  rw [parts t, parts s, ho, hr]

/-! ### A sequencer goes on -/

/-- From `s` to `t` the sequencer of a vessel has gone on: no other has moved, no authority has changed, its causes
are those that hold if they were, and with none holding it is still under way if it was. -/
structure Runs (v : Vessel) (s t : State) : Prop where
  outer  : t.outer = s.outer
  others : ∀ w, w ≠ v → t.seat w = s.seat w
  rule   : (t.seat v).rule = (s.seat v).rule
  causes : (s.seat v).causes = causesNow s v → (t.seat v).causes = causesNow s v
  going  : (causesNow s v).any = false → (s.seat v).Going → (t.seat v).Going

theorem Runs.of_seat (ho : t.outer = s.outer) (hs : t.seat = s.seat) : Runs v s t :=
  ⟨ho, fun _ _ => by rw [hs], by rw [hs], by rw [hs]; exact id, by rw [hs]; exact fun _ => id⟩

theorem Runs.trans (h : Runs v s t) (h' : Runs v t u) : Runs v s u := by
  have same : causesNow t v = causesNow s v := causesNow_congr h.outer h.rule
  refine ⟨h'.outer.trans h.outer, fun w hw => (h'.others w hw).trans (h.others w hw), h'.rule.trans h.rule, fun hc => ?_,
    fun hn hg => h'.going (by rw [same]; exact hn) (h.going hn hg)⟩
  rw [← same]
  exact h'.causes (by rw [same]; exact h.causes hc)

theorem Runs.keep (h : Runs v s t) (ho : u.outer = t.outer) (hs : u.seat = t.seat) : Runs v s u :=
  h.trans (.of_seat ho hs)

/-- The sequencer enters RUNNING or BLOCKED. -/
theorem Runs.enter (v : Vessel) (s : State) {f : Sequencer → Sequencer} (hc : ∀ q, (f q).causes = q.causes)
    (hg : ∀ q r, (Seat.of (f q) r).Going) : Runs v s (withSeq v f s) := by
  refine ⟨rfl, fun w hw => withSeq_seat_other f hw, ?_, ?_, ?_⟩ <;> rw [withSeq_seat_same]
  · rfl
  · exact (hc _).trans
  · exact fun _ _ => hg ..

theorem beginStep_seat (v : Vessel) (n : Nat) (s : State) :
    (beginStep v n s).seat = (withSeq v (fun q => ({ q with causes := causesNow s v }).begin n) s).seat := by
  unfold beginStep
  simp only
  repeat' split
  all_goals simp

theorem beginStep_runs (v : Vessel) (n : Nat) (s : State) : Runs v s (beginStep v n s) := by
  refine ⟨beginStep_outer .., fun w hw => ?_, ?_, fun _ => ?_, fun hn _ => ?_⟩ <;> rw [beginStep_seat]
  · exact withSeq_seat_other _ hw
  · rw [withSeq_seat_same]; rfl
  · rw [withSeq_seat_same]; rfl
  · rw [withSeq_seat_same]
    refine .inl ?_
    show (if (causesNow s v).any then SeqState.suspended else .running) = .running
    rw [hn]
    rfl

theorem inEffect_runs (v : Vessel) (st : StepRow) (s : State) {f : Sequencer → Sequencer}
    (hf : ∀ q, (f q).causes = q.causes ∧ (f q).state = q.state := by intros; exact ⟨rfl, rfl⟩) : Runs v s (inEffect v st f s) := by
  have entered : Runs v s (withSeq v (fun q => f { q with state := .running, phase := .inEffect, blocked := none }) s) :=
    .enter v s (fun q => (hf _).1) fun q _ => .inl (hf _).2
  unfold inEffect
  simp only
  split
  · exact entered.keep rfl withVessel_seat
  · exact entered

theorem transferInEffect_runs (v : Vessel) (st : StepRow) (s : State) : Runs v s (transferInEffect v st s) := by
  have entered : Runs v s (withSeq v (fun q => { q with state := .running, phase := .inEffect, blocked := none }) s) :=
    .enter v s (fun _ => rfl) fun _ _ => .inl rfl
  have locked := entered.keep (withVessel_outer v (fun r => { r with stepLock := true }) _) withVessel_seat
  exact locked.keep (transferOn_outer ..) (transferOn_seat ..)

theorem openTransfer_runs (v w : Vessel) (st : StepRow) (s : State) : Runs v s (openTransfer v w st s) := by
  unfold openTransfer
  simp only
  refine Runs.trans (.of_seat ?_ ?_) (transferInEffect_runs v st _)
  · split <;> simp
  · split
    · exact (withBrew_seat ..).trans (Eq.trans withVessel_seat withVessel_seat)
    · exact Eq.trans withVessel_seat withVessel_seat

theorem blockStep_runs (v : Vessel) (r : BlockReason) (s : State) : Runs v s (blockStep v r s) :=
  .enter v s (fun _ => rfl) fun _ _ => .inr rfl

/-- A step that takes effect leaves its sequencer RUNNING or BLOCKED (R78). -/
theorem takeEffect_runs (v : Vessel) (s : State) : Runs v s (takeEffect v s).2 := by
  unfold takeEffect
  split
  · exact .of_seat rfl rfl
  · rename_i st _
    cases st.kind with
    | hold =>
      simp only
      split
      · dsimp only
        exact inEffect_runs v st s
      · dsimp only
        exact inEffect_runs v st s
    | ramp | wait | boil => exact inEffect_runs v st s
    | drive =>
      exact (inEffect_runs v st s).keep (offerStepFrame_outer ..) (offerStepFrame_seat ..)
    | transfer =>
      simp only
      split
      · exact .of_seat rfl rfl
      · split
        · exact transferInEffect_runs ..
        · split
          · exact openTransfer_runs ..
          · exact blockStep_runs ..
    | cast =>
      have attempted : Runs v s (castAttempt s).2 := .of_seat (castAttempt_outer s) (seat_of_works (castAttempt_works s))
      simp only
      split <;> (rename_i h; rw [h] at attempted; simp only at attempted ⊢)
      · exact attempted.trans (blockStep_runs ..)
      · refine attempted.trans (.enter v _ ?_ ?_)
        · exact fun _ => rfl
        · exact fun _ _ => .inl rfl

theorem advance_runs (n : Nat) (v : Vessel) (s : State) : Runs v s (advance n v s) := by
  induction n generalizing s with
  | zero => exact .of_seat rfl rfl
  | succ n ih =>
    have effect := takeEffect_runs v s
    unfold advance
    split <;> (rename_i h; rw [h] at effect; simp only at effect)
    · exact effect
    · have done := effect.keep (finishStep_outer v _) (finishStep_seat v _)
      simp only
      split
      · split
        · split
          · exact (done.trans (beginStep_runs ..)).trans (ih _)
          · exact done.trans (beginStep_runs ..)
        · exact done
      · exact done

theorem startAt_runs (v : Vessel) (n : Nat) (s : State) : Runs v s (startAt v n s) := by
  have begun := beginStep_runs v n s
  unfold startAt
  simp only
  split
  · exact begun.trans (advance_runs ..)
  · exact begun

theorem completeStep_runs (v : Vessel) (s : State) : Runs v s (completeStep v s) := by
  have done : Runs v s (finishStep v s) := .of_seat (finishStep_outer ..) (finishStep_seat ..)
  unfold completeStep
  simp only
  split
  · split
    · exact done.trans (startAt_runs ..)
    · exact done
  · exact done

/-! ### Suspension and resumption (R76, R77) -/

theorem leftSuspended_seat (v : Vessel) (s : State) : (leftSuspended v s).seat = s.seat := by
  unfold leftSuspended
  split
  · exact boilPump_seat s
  · rfl

/-- A suspended sequencer is SUSPENDED at its place in the list, with its causes (R76). -/
theorem suspend_seat (v : Vessel) (s : State) :
    (suspend v s).seat = (withSeq v (fun q =>
      { (q.stopHold s.loopTime).dropStepFrame with state := .suspended, dtBase := false }) s).seat := by
  unfold suspend
  simp only
  split <;> simp

theorem Sequencer.stopHold_fields (now : LoopTime) (q : Sequencer) :
    (q.stopHold now).position = q.position ∧ (q.stopHold now).list = q.list ∧ (q.stopHold now).causes = q.causes := by
  unfold Sequencer.stopHold
  split <;> exact ⟨rfl, rfl, rfl⟩

theorem suspend_seat_same (v : Vessel) (s : State) :
    (suspend v s).seat v = { s.seat v with state := .suspended } := by
  obtain ⟨position, list, causes⟩ := Sequencer.stopHold_fields s.loopTime (s.seqs.get v)
  rw [suspend_seat, withSeq_seat_same]
  simp only [State.seat, Seat.of, Sequencer.dropStepFrame, position, list, causes]

theorem suspend_seat_other (s : State) (h : w ≠ v) : (suspend v s).seat w = s.seat w := by
  rw [suspend_seat]
  exact withSeq_seat_other _ h

/-- The sequencer runs, and goes on from there. -/
def Resumes (v : Vessel) (s t : State) : Prop := ∃ u, Runs v s u ∧ (u.seat v).Going ∧ Runs v u t

theorem retryStep_resumes (v : Vessel) (s : State) : Resumes v s (retryStep v s) := by
  refine ⟨withSeq v (fun q => { q with state := .running, blocked := none }) s, .enter v s (fun _ => rfl) fun _ _ => .inl rfl,
    by rw [withSeq_seat_same]; exact .inl rfl, ?_⟩
  unfold retryStep
  simp only
  have tried := Runs.trans (.of_seat (leaveConds_outer _) (leaveConds_seat _)) (advance_runs 256 v
    (leaveConds (withSeq v (fun q => { q with state := .running, blocked := none }) s)))
  split
  · exact tried.keep (forceZero_outer ..) (forceZero_seat ..)
  · exact tried

theorem resumeStep_resumes (v : Vessel) (st : StepRow) (s : State) : Resumes v s (resumeStep v st s) := by
  refine ⟨withSeq v (fun q => { q with state := .running }) s, .enter v s (fun _ => rfl) fun _ _ => .inl rfl,
    by rw [withSeq_seat_same]; exact .inl rfl, ?_⟩
  unfold resumeStep
  cases st.kind with
  | transfer => exact .of_seat (transferOn_outer ..) (transferOn_seat ..)
  | hold =>
    simp only
    split
    · exact .of_seat rfl rfl
    · exact .of_seat rfl withSeq_seat
  | drive =>
    have offered : Runs v _ (offerStepFrame v st (withSeq v (fun q => { q with state := .running }) s)).2 :=
      .of_seat (offerStepFrame_outer ..) (offerStepFrame_seat ..)
    simp only
    split <;> (rename_i h; rw [h] at offered)
    · exact offered.trans (completeStep_runs ..)
    · exact offered
  | ramp | wait | boil | cast => exact .of_seat rfl rfl

theorem resume_resumes {st : StepRow} (h : currentStep s v = some st) : Resumes v s (resume v s) := by
  have left : ∀ t, Resumes v s t → Resumes v s (leftSuspended v t) := by
    rintro t ⟨u, begun, going, on⟩
    exact ⟨u, begun, going, on.keep (leftSuspended_outer ..) (leftSuspended_seat ..)⟩
  unfold resume
  simp only [h]
  apply left
  split
  · exact resumeStep_resumes ..
  · exact retryStep_resumes ..

theorem resume_nothing (h : currentStep s v = none) : resume v s = s := by
  unfold resume
  simp only [h]

/-- The causes of a vessel's sequencer brought up to date from `s` to `t` (R76, R77): with one holding, a sequencer under
way is SUSPENDED where it stands and a SUSPENDED one stays; with none, a SUSPENDED one goes on; any other keeps its
state. -/
structure Synced (v : Vessel) (s t : State) : Prop where
  rule   : (t.seat v).rule = (s.seat v).rule
  causes : (t.seat v).causes = causesNow s v
  held   : (causesNow s v).any = true → (t.seat v).position = (s.seat v).position
    ∧ (t.seat v).state =
      if (s.seat v).state = .running ∨ (s.seat v).state = .blocked then .suspended else (s.seat v).state
  freed  : (causesNow s v).any = false → (s.seat v).state = .suspended → currentStep s v ≠ none → (t.seat v).Going
  still  : (s.seat v).state = .idle ∨ (s.seat v).state = .armed ∨ (s.seat v).state = .halted →
    (t.seat v).state = (s.seat v).state

/-- The current step turns on the tables and the place in the list. -/
theorem currentStep_congr (ht : t.tables = s.tables) (hp : (t.seat v).position = (s.seat v).position)
    (hl : (t.seat v).list = (s.seat v).list) : currentStep t v = currentStep s v := by
  have parts : ∀ u : State, currentStep u v = (u.seat v).position.bind fun pos =>
      (u.seat v).list.map fun recipe => stepRow u.tables (listRow u.tables recipe v pos) := fun _ => rfl
  rw [parts t, parts s, ht, hp, hl]

theorem tables_of_outer (h : t.outer = s.outer) : t.tables = s.tables := by
  show t.outer.tables = s.outer.tables
  rw [h]

/-- What `Synced` says turns on the outer state and the seat of the vessel at both ends. -/
theorem Synced.congr {s' t' : State} (h : Synced v s t) (ho : s.outer = s'.outer) (hs : s.seat v = s'.seat v)
    (ht : t'.seat v = t.seat v) : Synced v s' t' := by
  have now : causesNow s v = causesNow s' v := causesNow_congr ho (by rw [hs])
  have step : currentStep s v = currentStep s' v := currentStep_congr (tables_of_outer ho) (by rw [hs]) (by rw [hs])
  obtain ⟨rule, causes, held, freed, still⟩ := h
  rw [now, hs] at held
  rw [now, hs, step] at freed
  rw [hs] at rule still
  rw [now] at causes
  constructor <;> rw [ht] <;> assumption

/-- The causes of a sequencer set to those that hold. -/
def causesNoted (v : Vessel) (s : State) : State := withSeq v (fun q => { q with causes := causesNow s v }) s

theorem causesNoted_seat (v : Vessel) (s : State) :
    (causesNoted v s).seat v = { s.seat v with causes := causesNow s v } := withSeq_seat_same _

theorem syncCauses_eq (v : Vessel) (s : State) :
    syncCauses v s = match (s.seat v).state with
      | .running | .blocked => if (causesNow s v).any then suspend v (causesNoted v s) else causesNoted v s
      | .suspended => if (causesNow s v).any then causesNoted v s else resume v (causesNoted v s)
      | .idle | .armed | .halted => causesNoted v s := by
  have state : ((causesNoted v s).seqs.get v).state = (s.seat v).state :=
    congrArg Seat.state (causesNoted_seat v s)
  rw [← state]
  rfl

theorem syncCauses_synced (v : Vessel) (s : State) : Synced v s (syncCauses v s) := by
  have noted := causesNoted_seat v s
  have suspended := suspend_seat_same v (causesNoted v s)
  rw [noted] at suspended
  have step : currentStep (causesNoted v s) v = currentStep s v :=
    currentStep_congr rfl (by rw [noted]) (by rw [noted])
  have now : causesNow (causesNoted v s) v = causesNow s v := causesNow_congr rfl (by rw [noted])
  rw [syncCauses_eq]
  cases state : (s.seat v).state with
  | running | blocked =>
    simp only
    split
    · rename_i any
      constructor <;> simp [suspended, state, any]
    · rename_i none
      constructor <;> simp [noted, state, none]
  | suspended =>
    simp only
    split
    · rename_i any
      constructor <;> simp [noted, state, any]
    · rename_i none
      cases cur : currentStep s v with
      | none =>
        rw [resume_nothing (step.trans cur)]
        constructor <;> simp [noted, state, none, cur]
      | some st =>
        obtain ⟨u, begun, going, on⟩ := resume_resumes (step.trans cur)
        have run := begun.trans on
        have later : causesNow u v = causesNow s v := (causesNow_congr begun.outer begun.rule).trans now
        refine ⟨by rw [run.rule, noted], ?_, fun any => absurd any none, fun any _ _ => on.going (by rw [later]; exact any) going,
          by rw [state]; nofun⟩
        rw [← now]
        exact run.causes (by rw [noted, now])
  | idle | armed | halted => constructor <;> simp [noted, state]

/-- No other sequencer moves. -/
theorem syncCauses_seat_other (s : State) (h : w ≠ v) : (syncCauses v s).seat w = s.seat w := by
  have noted : (causesNoted v s).seat w = s.seat w := withSeq_seat_other _ h
  rw [syncCauses_eq]
  cases (s.seat v).state with
  | running | blocked =>
    simp only
    split
    · exact (suspend_seat_other _ h).trans noted
    · exact noted
  | suspended =>
    simp only
    split
    · exact noted
    · cases cur : currentStep (causesNoted v s) v with
      | none => rw [resume_nothing cur]; exact noted
      | some st =>
        obtain ⟨u, begun, _, on⟩ := resume_resumes cur
        exact ((begun.trans on).others w h).trans noted
  | idle | armed | halted => exact noted

theorem syncList_other (l : List Vessel) (s : State) (h : w ∉ l) :
    (l.foldl (fun s v => syncCauses v s) s).seat w = s.seat w := by
  induction l generalizing s with
  | nil => rfl
  | cons v l ih =>
    rw [List.mem_cons, not_or] at h
    rw [List.foldl_cons, ih _ h.2, syncCauses_seat_other s h.1]

theorem syncList_synced (l : List Vessel) (s : State) (hn : l.Nodup) (h : v ∈ l) :
    Synced v s (l.foldl (fun s v => syncCauses v s) s) := by
  induction l generalizing s with
  | nil => cases h
  | cons w l ih =>
    rw [List.nodup_cons] at hn
    rw [List.foldl_cons]
    by_cases e : v = w
    · rw [← e] at hn ⊢
      exact (syncCauses_synced v s).congr rfl rfl (syncList_other l _ hn.1)
    · exact (ih (syncCauses w s) hn.2 ((List.mem_cons.1 h).resolve_left e)).congr (syncCauses_outer w s)
        (syncCauses_seat_other s e) rfl

/-- The causes of all four sequencers are brought up to date, each as if alone. -/
theorem syncAllCauses_synced (v : Vessel) (s : State) : Synced v s (syncAllCauses s) :=
  syncList_synced vessels s (by decide) (by cases v <;> decide)

end Sys2Proof.Machine
end

section
/-! The loop lost and found again, and the power-fail warning (R12, R76, R77, R124, R184). -/

namespace Sys2Proof.Machine

variable {s t : State} {v : Vessel}

/-! ### The cast while the sequencers suspend -/

@[simp] theorem seqOffer_castMeter (v : Vessel) (u : UnsentOffer) (s : State) :
    (seqOffer v u s).2.castMeter = s.castMeter := by
  have offered := castMeter_of_bare (offerDrive_bare u.row u.demand (.sequencer v) s)
  rw [seqOffer_eq]
  exact offered

@[simp] theorem stepDrive_castMeter (v : Vessel) (u : UnsentOffer) (s : State) :
    (stepDrive v u s).2.castMeter = s.castMeter := by
  rw [stepDrive_eq]
  simp only
  split
  · exact seqOffer_castMeter ..
  · exact seqOffer_castMeter ..

@[simp] theorem transferDrive_castMeter (v : Vessel) (r : Option Nat) (d : Nat) (s : State) :
    (transferDrive v r d s).castMeter = s.castMeter := by
  unfold transferDrive
  split
  · exact stepDrive_castMeter ..
  · rfl

theorem transferOff_castMeter (v : Vessel) (st : StepRow) (s : State) : (transferOff v st s).castMeter = s.castMeter := by
  simp [transferOff]

theorem forceZero_castMeter (v : Vessel) (s : State) : (forceZero v s).castMeter = s.castMeter := by
  unfold forceZero offerHeat
  simp only
  split
  · split
    · split <;> simp
    · rfl
  · rfl

theorem suspend_castMeter (v : Vessel) (s : State) : (suspend v s).castMeter = s.castMeter := by
  unfold suspend
  simp only
  split
  · rw [transferOff_castMeter, forceZero_castMeter]; rfl
  · rw [forceZero_castMeter]; rfl

/-- With a cause holding no step goes on, so the cast is left alone. -/
theorem syncCauses_castMeter (h : (causesNow s v).any = true) : (syncCauses v s).castMeter = s.castMeter := by
  rw [syncCauses_eq, h]
  cases (s.seat v).state with
  | running | blocked => exact suspend_castMeter ..
  | suspended | idle | armed | halted => rfl

theorem pins_of_outer (h : t.outer = s.outer) : t.pins = s.pins := by
  show t.outer.pins = s.outer.pins
  rw [h]

theorem syncAllCauses_castMeter (h : s.pins.powerFail = true) : (syncAllCauses s).castMeter = s.castMeter := by
  unfold syncAllCauses
  generalize vessels = l
  induction l generalizing s with
  | nil => rfl
  | cons v l ih =>
    have any : (causesNow s v).any = true := by simp [Causes.any, causesNow, h]
    have pins : (syncCauses v s).pins.powerFail = true := by
      rw [pins_of_outer (syncCauses_outer v s)]
      exact h
    rw [List.foldl_cons, ih pins, syncCauses_castMeter any]

/-! ### The cast that the power-fail warning charges (R124) -/

theorem Cast.interrupt_fields (c : Cast) :
    c.interrupt.number = c.number ∧ c.interrupt.flags.interrupted = true
      ∧ (c.endCause = none → c.interrupt.endCause = some .power) := by
  unfold Cast.interrupt Cast.endBy
  refine ⟨?_, rfl, fun h => ?_⟩
  · dsimp only
    split <;> rfl
  · rw [h]

theorem castPowerFail_charges {c : Cast} (hc : s.castMeter.record = some c)
    (state : c.state = .metering ∨ c.state = .paused ∨ c.state = .settling) :
    ∃ d, (castPowerFail s).castMeter.record = some d ∧ d.number = c.number ∧ d.state = .charging
      ∧ d.flags.interrupted = true ∧ (c.endCause = none → d.endCause = some .power) := by
  obtain ⟨number, interrupted, endCause⟩ := c.interrupt_fields
  have record : (withPitch PitchPart.giveUpIfOutstanding (withCast Cast.interrupt s)).castMeter.record
      = some { c.interrupt with pitch := c.interrupt.pitch.map PitchPart.giveUpIfOutstanding } := by
    show (s.castMeter.record.map Cast.interrupt).map _ = _
    rw [hc]
    rfl
  unfold castPowerFail
  simp only [hc]
  obtain e | e | e := state <;> rw [e]
  · exact ⟨_, enterCharging_record ((drivePump_record ..).trans record), number, rfl, interrupted, endCause⟩
  · exact ⟨_, enterCharging_record record, number, rfl, interrupted, endCause⟩
  · exact ⟨_, enterCharging_record record, number, rfl, interrupted, endCause⟩

/-- A cast in CHARGING issues no stroke. -/
theorem tryIssue_charging {c : Cast} (hc : s.castMeter.record = some c) (h : c.state = .charging) : tryIssue s = s := by
  cases hp : c.pitch with
  | none =>
    unfold tryIssue
    simp only [hc, hp]
  | some p => exact tryIssue_held hc hp (by simp [mayIssue, h])

theorem doseFrameLeft_charging (n : Nat) {c : Cast} (hc : s.castMeter.record = some c) (h : c.state = .charging) :
    doseFrameLeft n s = s := by
  have mine : (s.castMeter.record.any fun c => c.number == n && c.state.pitches) = false := by
    rw [hc, Option.any_some, h]
    exact Bool.and_false _
  unfold doseFrameLeft
  simp only [mine, Bool.false_eq_true, if_false]
  exact tryIssue_charging hc h

theorem drainTells_charging (n : Nat) {c : Cast} (hc : s.castMeter.record = some c) (h : c.state = .charging) :
    (drainTells n s).castMeter.record = some c := by
  induction n generalizing s with
  | zero => exact hc
  | succ n ih =>
    unfold drainTells
    split
    · exact hc
    · rename_i o rest _
      have told := fun k => doseFrameLeft_charging (s := { s with tells := rest }) k hc h
      apply ih
      cases o with
      | boilUnit => exact (congrArg CastMeter.record (boilFrameLeft_castMeter _)).trans hc
      | pitchUnit k => exact (congrArg (fun u : State => u.castMeter.record) (told k)).trans hc
      | agent | guardUnit | sequencer | castMeter => exact hc

theorem settle_charging {c : Cast} (hc : s.castMeter.record = some c) (h : c.state = .charging) :
    (settle s).castMeter.record = some c := by
  have drained := drainTells_charging 64 hc h
  rw [← refreshAll_castMeter vessels, ← castMeter_of_bare (syncConditions_bare _)] at drained
  exact drained

theorem mode_of_outer (h : t.outer = s.outer) : t.mode = s.mode := by
  show t.outer.mode = s.outer.mode
  rw [h]

theorem linkDown_of_outer (h : t.outer = s.outer) : t.loop.linkDown = s.loop.linkDown := by
  show t.outer.loop.linkDown = s.outer.loop.linkDown
  rw [h]

/-! ### The conditions of a settled state are their causes (R177) -/

theorem tellLeft_agent (o : Owner) (s : State) : (tellLeft o s).agent = s.agent := by cases o <;> rfl

theorem startNext_agent (s : State) : (startNext s).agent = s.agent := by
  unfold startNext
  split
  case h_1 | h_2 => rfl
  · split
    case h_4 =>
      split
      · exact tellLeft_agent ..
      · rfl
    case h_3 => exact tellLeft_agent ..
    all_goals rfl

theorem enterQueue_agent (f : Frame) (o : Owner) (s : State) : (enterQueue f o s).2.agent = s.agent := by
  unfold enterQueue
  simp only
  split
  · rfl
  · exact startNext_agent _

theorem latch_conditions (c : Cond) (s : State) : (latch c s).agent.conditions = s.agent.conditions := by
  obtain ⟨l, e⟩ := latch_eq c s
  rw [e]

theorem offer_conditions (f : Frame) (o : Owner) (s : State) :
    (offer f o s).2.agent.conditions = s.agent.conditions := by
  unfold offer
  simp only
  split
  · rw [tellLeft_agent]; rfl
  · split
    · rw [enterQueue_agent]
    · split
      · split
        · rw [enterQueue_agent, latch_conditions]
          rfl
        · rfl
      · rfl

theorem attention_conditions (s : State) : (attention s).agent.conditions = s.agent.conditions := by
  have offered := offer_conditions (reportFrame s 1 (condMask s.agent.conditions)) .agent s
  unfold attention
  split
  · rfl
  · simp only
    split <;> exact offered

/-- Every condition has its place in the order of 11.3. -/
theorem mem_allConds (k : Cond) : k ∈ allConds := by
  cases k with
  | pvStale v | suspended v | blocked v | held v => cases v <;> decide
  | _ => decide

theorem mem_insertCond {c k : Cond} {set : List Cond} : k ∈ insertCond c set ↔ k = c ∨ k ∈ set := by
  simp [insertCond, mem_allConds]

theorem mem_joinCond {c k : Cond} : k ∈ (joinCond c s).agent.conditions ↔ k = c ∨ k ∈ s.agent.conditions := by
  rw [← mem_insertCond]
  unfold joinCond
  simp only
  split
  · rfl
  · rw [attention_conditions]; rfl

/-- A condition whose cause holds joins, and no other. -/
theorem mem_joinIfCaused {c k : Cond} :
    k ∈ (joinIfCaused s c).agent.conditions ↔ k ∈ s.agent.conditions ∨ (k = c ∧ condCause s c = true) := by
  unfold joinIfCaused
  split
  · rename_i h
    rw [Bool.and_eq_true] at h
    rw [mem_joinCond, and_iff_left h.1, or_comm]
  · rename_i h
    simp only [Bool.and_eq_true, Bool.not_eq_true', List.contains_eq_mem, decide_eq_false_iff_not, not_and, not_not] at h
    refine ⟨.inl, fun x => x.elim id ?_⟩
    rintro ⟨rfl, cause⟩
    exact h cause

/-- A condition's cause is no matter of what waits to be sent, but for EGRESS_CONGESTED (R16). -/
theorem condCause_congr {k : Cond} (hk : k ≠ .egressCongested) (hr : t.rest = s.rest) (hs : t.seqs = s.seqs) :
    condCause t k = condCause s k := by
  have parts : ∀ u : State, condCause u k = condCause { u.rest with seqs := u.seqs } k := by
    intro u
    cases k with
    | egressCongested => exact absurd rfl hk
    | _ => rfl
  rw [parts t, parts s, hr, hs]

theorem mem_joinAll {k : Cond} (hk : k ≠ .egressCongested) (l : List Cond) (s : State) :
    k ∈ (l.foldl joinIfCaused s).agent.conditions ↔ k ∈ s.agent.conditions ∨ (k ∈ l ∧ condCause s k = true) := by
  induction l generalizing s with
  | nil => simp
  | cons c l ih =>
    have cause := condCause_congr hk (joinIfCaused_rest s c) (joinIfCaused_seqs s c)
    rw [List.foldl_cons, ih, cause, mem_joinIfCaused, List.mem_cons]
    constructor
    · rintro ((mem | ⟨rfl, holds⟩) | ⟨mem, holds⟩)
      · exact .inl mem
      · exact .inr ⟨.inl rfl, holds⟩
      · exact .inr ⟨.inr mem, holds⟩
    · rintro (mem | ⟨rfl | mem, holds⟩)
      · exact .inl (.inl mem)
      · exact .inl (.inr ⟨rfl, holds⟩)
      · exact .inr ⟨mem, holds⟩

theorem mem_leaveConds {k : Cond} :
    k ∈ (leaveConds s).agent.conditions ↔ k ∈ s.agent.conditions ∧ condCause s k = true := List.mem_filter

theorem mem_syncConditions {k : Cond} (hk : k ≠ .egressCongested) (hm : s.mode = .active) :
    k ∈ (syncConditions s).agent.conditions ↔ condCause s k = true := by
  have left : condCause (leaveConds s) k = condCause s k := condCause_congr hk (leaveConds_rest s) (leaveConds_seqs s)
  unfold syncConditions
  rw [if_pos hm, mem_joinIfCaused, mem_joinAll hk, mem_leaveConds, left]
  constructor
  · rintro ((⟨_, holds⟩ | ⟨_, holds⟩) | ⟨rfl, _⟩)
    · exact holds
    · exact holds
    · exact absurd rfl hk
  · exact fun holds => .inl (.inr ⟨mem_allConds k, holds⟩)

/-- Every condition but EGRESS_CONGESTED is present in a settled state exactly while its cause holds. -/
theorem mem_settle_conditions {k : Cond} (hk : k ≠ .egressCongested) (hm : s.mode = .active) :
    k ∈ (settle s).agent.conditions ↔ condCause (settle s) k = true := by
  have works := (works_of_rest (refreshAll_rest vessels (drainTells 64 s))).trans (drainTells_works 64 s)
  have active : (vessels.foldl refreshSync (drainTells 64 s)).mode = .active :=
    (mode_of_outer (outer_of_works works)).trans hm
  have settled : condCause (settle s) k = condCause (vessels.foldl refreshSync (drainTells 64 s)) k :=
    condCause_congr hk ((rest_tells _).trans (syncConditions_rest _)) (syncConditions_seqs _)
  rw [settled]
  exact mem_syncConditions hk active

/-! ### The commands -/

theorem startRead_castMeter (s : State) : (startRead s).castMeter = s.castMeter := by
  unfold startRead
  split <;> rfl

/-- With a cause that holds, a sequencer under way is suspended where it stands (R76). -/
theorem Synced.suspends (h : Synced v s t) (any : (causesNow s v).any = true) :
    (t.seqs.get v).state = (if (s.seqs.get v).state = .running ∨ (s.seqs.get v).state = .blocked then SeqState.suspended
        else (s.seqs.get v).state)
      ∧ (t.seqs.get v).position = (s.seqs.get v).position := by
  obtain ⟨position, state⟩ := h.held any
  exact ⟨state, position⟩

theorem settle_synced_causes (v : Vessel) (s : State) : Synced v s (settle (syncAllCauses s)) :=
  (syncAllCauses_synced v s).congr rfl rfl (by rw [settle_seat])

/-- The link timer runs out (R12). -/
theorem linkTimerExpiry_suspends {start : LoopTime} (hm : s.mode = .active) (ht : s.loop.linkTimer = some start)
    (due : 250 ≤ (s.loopTime - start).toNat) :
    exec .linkTimerExpiry s = .next (settle (syncAllCauses
      { s with loop := { s.loop with linkDown := true, linkTimer := none } })) := by
  have expired : linkDue s = true := by
    unfold linkDue
    rw [ht]
    exact decide_eq_true due
  show execLinkTimerExpiry s = _
  rw [execLinkTimerExpiry, if_pos expired, whenActive, if_pos hm]
  rfl

/-- The power-fail warning (R124, R184). -/
theorem powerFailWarning_charges (hm : s.mode = .active) (hp : s.pins.powerFail = false) :
    exec .powerFailWarning s = .next (settle (powerFailEffect { s with pins := { s.pins with powerFail := true } })) := by
  show execPowerFailWarning s = _
  rw [execPowerFailWarning, hp, if_neg (by decide), whenActive, if_pos hm]

theorem powerFailEffect_works (s : State) : (powerFailEffect s).works = (syncAllCauses s).works :=
  (startRead_works _).trans (castPowerFail_works _)

/-- A good frame that is discarded ends LINK_DOWN (R12). -/
theorem discardedFrame_linkUp {f : Frame} (hm : s.mode = .active) (hr : s.loop.rx = none) (down : s.loop.linkDown = true)
    (g : f.Good) (h : f.source = s.stationAddress ∨ 64 ≤ f.hop.toNat) :
    exec (.frameComplete f.bytes) s
      = .next (settle (settle (syncAllCauses { s with loop := { s.loop with linkDown := false } }.heard))) := by
  rw [exec_frame hm hr f g.length, frameArrived_discarded (s := s.heard) g h]
  unfold linkUp
  rw [if_pos (show s.heard.loop.linkDown = true from down)]
  rfl

/-- A sequencer once LINK_DOWN is over (R77). -/
theorem linkFound_goes (v : Vessel) (s : State) :
    let up : State := { s with loop := { s.loop with linkDown := false } }
    let t := settle (settle (syncAllCauses up.heard))
    (t.seqs.get v).causes.link = false
    ∧ ((s.seqs.get v).state = .suspended → Suspending up v →
        (t.seqs.get v).state = .suspended ∧ (t.seqs.get v).position = (s.seqs.get v).position)
    ∧ ((s.seqs.get v).state = .suspended → ¬Suspending up v → currentStep s v ≠ none →
        (t.seqs.get v).state = .running ∨ (t.seqs.get v).state = .blocked)
    ∧ ((s.seqs.get v).state = .idle ∨ (s.seqs.get v).state = .armed ∨ (s.seqs.get v).state = .halted →
        (t.seqs.get v).state = (s.seqs.get v).state) := by
  intro up t
  have synced : Synced v up.heard t := (settle_synced_causes v up.heard).congr rfl rfl (by rw [settle_seat])
  have any : (causesNow up.heard v).any = true ↔ Suspending up v := causesNow_any_iff up.heard v
  refine ⟨congrArg Causes.link synced.causes, fun still cause => ?_, fun still free step => ?_, synced.still⟩
  · obtain ⟨state, position⟩ := synced.suspends (any.2 cause)
    have stays : (up.heard.seqs.get v).state = .suspended := still
    rw [stays, if_neg (by decide)] at state
    exact ⟨state, position⟩
  · have none : (causesNow up.heard v).any = false := Bool.eq_false_iff.2 fun x => free (any.1 x)
    exact synced.freed none still step

/-- Settles O19. -/
theorem linkAndPowerSuspend : Obligations.LinkAndPowerSuspend := by
  refine fun s hm => ⟨fun start ht due => ⟨_, linkTimerExpiry_suspends hm ht due, ?_, fun v => ?_⟩,
    fun hp => ⟨_, powerFailWarning_charges hm hp, ?_, fun v => ?_, fun c hc state => ?_⟩,
    ⟨settle (syncAllCauses { s with pins := { s.pins with powerFail := false } }), ?_, ?_, fun v => ?_⟩,
    fun f _ _ hr down g h => ⟨_, discardedFrame_linkUp hm hr down g h, ?_, ?_, fun v => ?_⟩⟩
  · rw [settle_outer, syncAllCauses_outer]
  · have synced := settle_synced_causes v { s with loop := { s.loop with linkDown := true, linkTimer := none } }
    exact ⟨congrArg Causes.link synced.causes, synced.suspends (by simp [Causes.any, causesNow])⟩
  · rw [settle_outer, outer_of_works (powerFailEffect_works _), syncAllCauses_outer]
  · have synced := (syncAllCauses_synced v { s with pins := { s.pins with powerFail := true } }).congr rfl rfl
      (congrFun (seat_of_works ((settle_works _).trans (powerFailEffect_works _))) v)
    exact ⟨congrArg Causes.power synced.causes, synced.suspends (by simp [Causes.any, causesNow])⟩
  · have kept := syncAllCauses_castMeter (s := { s with pins := { s.pins with powerFail := true } }) rfl
    obtain ⟨d, record, number, charging, rest⟩ := castPowerFail_charges (by rw [kept]; exact hc) state
    have read : (powerFailEffect { s with pins := { s.pins with powerFail := true } }).castMeter.record = some d := by
      unfold powerFailEffect
      rw [startRead_castMeter]
      exact record
    exact ⟨d, settle_charging read charging, number, charging, rest⟩
  · show Host.Outcome.next (whenActive syncAllCauses _) = _
    rw [whenActive, if_pos hm]
  · rw [settle_outer, syncAllCauses_outer]
  · exact congrArg Causes.power (settle_synced_causes v { s with pins := { s.pins with powerFail := false } }).causes
  · rw [settle_outer, settle_outer, syncAllCauses_outer]
  · have outer := (settle_outer _).trans (syncAllCauses_outer { s with loop := { s.loop with linkDown := false } }.heard)
    rw [mem_settle_conditions (k := .linkDown) nofun ((mode_of_outer outer).trans hm), Bool.not_eq_true]
    exact (linkDown_of_outer (settle_outer _)).trans (linkDown_of_outer outer)
  · exact linkFound_goes v s

end Sys2Proof.Machine
end

section
/-! The full reset (R2, R3, R163, R167): what the start that follows it brings the cleared state to. -/

namespace Sys2Proof.Machine

variable {s t : State}

/-! ### A part with no supervisor sends no report (R178) -/

theorem attention_silent (h : s.agent.config.supervisor = 0) : attention s = s := if_pos h

/-- With no supervisor a condition joins without touching the loop. -/
theorem joinIfCaused_silent (c : Cond) (h : s.agent.config.supervisor = 0) :
    (joinIfCaused s c).loop = s.loop ∧ (joinIfCaused s c).agent.config.supervisor = 0 := by
  unfold joinIfCaused joinCond
  simp only
  split
  · split
    · exact ⟨rfl, h⟩
    · rw [attention_silent (by exact h)]
      exact ⟨rfl, h⟩
  · exact ⟨rfl, h⟩

theorem syncConditions_silent (h : s.agent.config.supervisor = 0) : (syncConditions s).loop = s.loop := by
  have all : ∀ (l : List Cond) (u : State), u.agent.config.supervisor = 0 →
      (l.foldl joinIfCaused u).loop = u.loop ∧ (l.foldl joinIfCaused u).agent.config.supervisor = 0 := by
    intro l
    induction l with
    | nil => exact fun u hu => ⟨rfl, hu⟩
    | cons c l ih =>
      intro u hu
      obtain ⟨loop, silent⟩ := joinIfCaused_silent c hu
      obtain ⟨loops, silents⟩ := ih _ silent
      exact ⟨loops.trans loop, silents⟩
  unfold syncConditions
  split
  · obtain ⟨loop, silent⟩ := all allConds (leaveConds s) h
    exact (joinIfCaused_silent .egressCongested silent).1.trans loop
  · rfl

theorem refreshAll_agent (l : List Vessel) (s : State) : (l.foldl refreshSync s).agent = s.agent := by
  induction l generalizing s with
  | nil => rfl
  | cons v l ih => rw [List.foldl_cons, ih]; rfl

theorem settle_silent (ht : s.tells = []) (h : s.agent.config.supervisor = 0) : (settle s).loop = s.loop := by
  have loop : (settle s).loop = (vessels.foldl refreshSync (drainTells 64 s)).loop :=
    syncConditions_silent (by rw [refreshAll_agent, drainTells_nil 64 ht]; exact h)
  rw [loop, refreshAll_loop, drainTells_nil 64 ht]

/-! ### The causes of sequencers that wait (R76) -/

theorem syncCauses_idle {v : Vessel} (h : (s.seqs.get v).state = .idle) : syncCauses v s = causesNoted v s := by
  rw [syncCauses_eq, show (s.seat v).state = .idle from h]

theorem syncCauses_waiting (s : State) (x : PerVessel Sequencer) {v : Vessel} (h : (x.get v).state = .idle) :
    syncCauses v { s with seqs := x }
      = { s with seqs := x.set v { x.get v with causes := causesNow s v } } := syncCauses_idle h

/-- Sequencers that wait take their causes and nothing else. -/
theorem syncAllCauses_waiting (s : State) {q : Sequencer} (hq : q.state = .idle) {c : Causes}
    (hc : ∀ v, causesNow s v = c) :
    syncAllCauses { s with seqs := .all q } = { s with seqs := .all { q with causes := c } } := by
  show syncCauses .whirlpool (syncCauses .kettle (syncCauses .lauter (syncCauses .mash { s with seqs := .all q }))) = _
  rw [syncCauses_waiting s _ (v := .mash), syncCauses_waiting s _ (v := .lauter), syncCauses_waiting s _ (v := .kettle),
    syncCauses_waiting s _ (v := .whirlpool)]
  · simp only [hc]
    rfl
  all_goals exact hq

/-! ### The start (R2, R3, R167) -/

/-- The part after a full reset, its address not yet read, the block of a write cut short (R163). -/
def resetHeld (address : Byte) (s : State) : State :=
  State.cleared { s.pins with address := address, reset := false } (cutStore s) s.pending

theorem exec_fullReset (address : Byte) (s : State) :
    exec (.fullReset false address) s = .next (startUp (resetHeld address s)) := rfl

/-- No vessel of the zeroed tables is valid, so no temperature is STALE. -/
theorem causesNow_reset {v : Vessel} (ht : s.tables = .zero) (hv : s.vessels = .all .cleared) (hl : s.loop.linkDown = false) :
    causesNow s v = { hand := false, stale := false, link := false, power := s.pins.powerFail } := by
  have invalid : vesselValid .zero v = false := by cases v <;> decide
  unfold causesNow
  rw [ht, hv, hl, invalid, PerVessel.get_all]
  rfl

/-- The part once its address is read, in the mode it leads to (R2, R3, R12, R181). -/
def resetRead (m : Mode) (address : Byte) (s : State) : State :=
  { resetHeld address s with
    stationAddress := address, mode := m, relayOpen := true
    loop := { LoopPort.cleared with linkTimer := some 0 }
    agent := { Agent.cleared with reportTimer := some 0 } }

theorem activeAddress_iff (a : Byte) : activeAddress a = true ↔ 1 ≤ a.toNat ∧ a.toNat ≤ 254 := decide_eq_true_iff

theorem addressRead_reset (address : Byte) (s : State) :
    addressRead (resetHeld address s) = resetRead (if activeAddress address then .active else .bypass) address s := rfl

/-- The part as the mount begins, each sequencer with its causes, before its conditions join (R167). -/
def mountBegun (address : Byte) (s : State) : State :=
  { resetRead .active address s with
    seqs := .all { Sequencer.cleared with
      causes := { hand := false, stale := false, link := false, power := s.pins.powerFail } }
    journal := { Journal.cleared with mount := .mounting } }

theorem startUp_active {address : Byte} (h : 1 ≤ address.toNat ∧ address.toNat ≤ 254) (s : State) :
    startUp (resetHeld address s) = settle (mountBegun address s) := by
  have active := (activeAddress_iff address).2 h
  have pins : activeAddress (resetHeld address s).pins.address = true := active
  have synced : syncAllCauses (withJournal (fun j => { j with mount := .mounting }) (resetRead .active address s))
      = mountBegun address s :=
    syncAllCauses_waiting { resetRead .active address s with journal := { Journal.cleared with mount := .mounting } }
      (q := .cleared) rfl fun v => causesNow_reset rfl rfl rfl
  unfold startUp
  rw [if_pos pins, addressRead_reset, if_pos active, synced]

theorem startUp_bypass {address : Byte} (h : address.toNat = 0 ∨ address.toNat = 255) (s : State) :
    startUp (resetHeld address s) = resetRead .bypass address s := by
  have inactive : ¬activeAddress address = true := by
    rw [activeAddress_iff]
    omega
  have pins : ¬activeAddress (resetHeld address s).pins.address = true := inactive
  unfold startUp
  rw [if_neg pins, addressRead_reset, if_neg inactive]

theorem journal_of_rest (h : t.rest = s.rest) : t.journal = s.journal := by
  show t.rest.journal = s.rest.journal
  rw [h]

/-- The mount does not end at once, so JOURNAL_NOT_READY is present (R167, R177). -/
theorem settle_mountBegun_notReady (address : Byte) (s : State) :
    .journalNotReady ∈ (settle (mountBegun address s)).agent.conditions := by
  rw [mem_settle_conditions (k := .journalNotReady) nofun (s := mountBegun address s) rfl]
  have journal := journal_of_rest (settle_rest (s := mountBegun address s) rfl)
  show ((settle (mountBegun address s)).journal.mount != .ready) = true
  rw [journal]
  rfl

/-- A write is in progress while its block is erased, programmed or read back (R160). -/
theorem writeInProgress_iff (j : Journal) :
    writeInProgress j = true ↔ j.op = .erasing ∨ j.op = .programming ∨ j.op = .verifying := by
  simp [writeInProgress, or_assoc]

theorem cutStore_uncut (h : ¬writeInProgress s.journal = true) : cutStore s = s.store := if_neg h

/-- Settles O10. -/
theorem fullResetFromAnyState : Obligations.FullResetFromAnyState := by
  refine fun address s => ⟨fun uncut => cutStore_uncut fun x => uncut ((writeInProgress_iff _).1 x),
    fun n hn => storeRead_cutStore_other hn,
    fun cut wf => storeRead_cutStore_block wf ((writeInProgress_iff _).2 cut), rfl, fun active => ?_, fun bypass => ?_,
    fun held => ⟨_, exec_fullReset address s, ?_⟩, fun h => ?_⟩
  · have loop := settle_silent (s := mountBegun address s) rfl rfl
    rw [exec_fullReset, startUp_active active]
    refine ⟨_, rfl, settle_rest (s := mountBegun address s) rfl, ?_, ?_, settle_mountBegun_notReady address s⟩
    · rw [loop]; rfl
    · rw [loop]; rfl
  · rw [exec_fullReset, startUp_bypass bypass]
    rfl
  · show Host.Outcome.next (releaseReset address _) = _
    unfold releaseReset
    rw [if_pos ⟨rfl, rfl⟩]
    rfl
  · show Host.Outcome.next (releaseReset address s) = _
    unfold releaseReset
    rw [if_neg fun x => h x.1]

end Sys2Proof.Machine
end

section
/-! The points' laws (R22 to R27): the value of an item, and what the items of a SAMPLE make of the entries. -/

namespace Sys2Proof.Machine

variable {s t : State}

/-! ### The value of an item (R22, R24, R25) -/

/-- The quotient of R24 is rounded toward negative infinity. -/
theorem scaleRaw_bounds (p : PointRow) (raw : Int) :
    65536 * scaleRaw p raw ≤ 65536 * p.offset + raw * p.gain
      ∧ 65536 * p.offset + raw * p.gain < 65536 * (scaleRaw p raw + 1) := by
  unfold scaleRaw
  omega

theorem clampInt_below {x lo hi : Int} (h : x < lo) : clampInt x lo hi = lo := by
  unfold clampInt
  omega

theorem clampInt_inside {x lo hi : Int} (hl : lo ≤ x) (hh : x ≤ hi) : clampInt x lo hi = x := by
  unfold clampInt
  omega

theorem clampInt_above {x lo hi : Int} (hr : lo ≤ hi) (h : hi < x) : clampInt x lo hi = hi := by
  unfold clampInt
  omega

/-- A scaled kind (R24). -/
def PointKind.scaled (k : PointKind) : Prop := k = .temperature ∨ k = .gravity ∨ k = .level

theorem itemValue_scaled {p : PointRow} {i : SampleItem} (hk : p.kind.scaled) (hf : i.format ≠ .count) :
    itemValue p i = some (clampInt (scaleRaw p i.raw) (kindRange p.kind).1 (kindRange p.kind).2,
      decide (scaleRaw p i.raw < (kindRange p.kind).1 ∨ (kindRange p.kind).2 < scaleRaw p i.raw)) := by
  unfold itemValue
  obtain k | k | k := hk <;> cases f : i.format with
    | count => exact absurd f hf
    | short | long => rw [k]

/-- Settles O20. -/
theorem sampleItemsScale : Obligations.SampleItemsScale := by
  refine fun p i => ⟨fun k f => ?_, fun lo hi range f => ⟨scaleRaw p i.raw, ?_⟩, fun k f => ?_,
    fun k f => ?_, fun k => ?_⟩
  · unfold itemValue
    rw [k, f]
  · have scaled : p.kind.scaled := by
      obtain ⟨k, _, _⟩ | ⟨k, _, _⟩ | ⟨k, _, _⟩ := range
      · exact .inl k
      · exact .inr (.inl k)
      · exact .inr (.inr k)
    have limits : kindRange p.kind = (lo, hi) ∧ lo ≤ hi := by
      obtain ⟨k, rfl, rfl⟩ | ⟨k, rfl, rfl⟩ | ⟨k, rfl, rfl⟩ := range <;> rw [k] <;> decide
    obtain ⟨limits, ordered⟩ := limits
    obtain ⟨low, high⟩ := scaleRaw_bounds p i.raw
    rw [itemValue_scaled scaled f, limits]
    refine ⟨low, high, fun h => ?_, fun h h' => ?_, fun h => ?_⟩
    · rw [clampInt_below h, decide_eq_true (.inl h)]
    · rw [clampInt_inside h h', decide_eq_false (by omega)]
    · rw [clampInt_above ordered h, decide_eq_true (.inr h)]
  · unfold itemValue
    cases e : i.format with
    | count => exact absurd e f
    | short | long => rw [k]
  · unfold itemValue
    obtain k | k | k := k <;> rw [k, f]
  · unfold itemValue
    cases e : p.kind with
    | temperature | gravity | level | flowCount => rw [e] at k; simp [PointKind.isDrive] at k
    | heatDrive | pumpDrive | valveDrive | doseDrive | additionDrive | panel => rfl

end Sys2Proof.Machine
end

section
/-! The Cast Meter's laws (R116 to R118, R120, R130): what pausing and dosing leave of a cast's record, and what a flow
sample meters into it. -/

namespace Sys2Proof.Machine

variable {s t : State} {c d : Cast}

/-! ### What pausing and dosing leave alone -/

/-- A pitch part with the exchange of strokes set aside (R131 to R133). -/
def PitchPart.steady (p : PitchPart) : PitchPart :=
  { p with issued := 0, outstanding := false, frameQueued := false, unsent := false, strokeTimer := none }

/-- A cast record with all set aside that pausing and dosing may touch: a PAUSED cast counts as METERING (R120). -/
def Cast.steady (c : Cast) : Cast :=
  { c with
    state := if c.state = .paused then .metering else c.state
    pauses := []
    pauseCount := 0
    pitch := c.pitch.map PitchPart.steady }

/-- The record of the state's cast, but for what pausing and dosing may touch. -/
def State.steadyCast (s : State) : Option Cast := s.castMeter.record.map Cast.steady

theorem steadyCast_of_record (h : t.castMeter.record = s.castMeter.record) : t.steadyCast = s.steadyCast := by
  unfold State.steadyCast
  rw [h]

theorem steadyCast_of_bare (h : t.bare = s.bare) : t.steadyCast = s.steadyCast :=
  steadyCast_of_record (by rw [castMeter_of_bare h])

theorem steadyCast_of_some (h : s.castMeter.record = some c) : s.steadyCast = some c.steady := by
  rw [State.steadyCast, h, Option.map_some]

theorem record_of_steadyCast (h : s.steadyCast = some c) : ∃ d, s.castMeter.record = some d ∧ d.steady = c :=
  Option.map_eq_some_iff.1 h

theorem withCast_steady {f : Cast → Cast} (h : ∀ c, s.castMeter.record = some c → (f c).steady = c.steady) :
    (withCast f s).steadyCast = s.steadyCast := by
  unfold State.steadyCast
  rw [withCast_castMeter]
  cases e : s.castMeter.record with
  | none => rfl
  | some c => exact congrArg some (h c e)

theorem withPitch_steady {f : PitchPart → PitchPart} (h : ∀ p, (f p).steady = p.steady) :
    (withPitch f s).steadyCast = s.steadyCast := by
  refine withCast_steady fun c _ => ?_
  have same : PitchPart.steady ∘ f = PitchPart.steady := funext h
  simp only [Cast.steady, Option.map_map, same]

theorem drivePump_steady (n : Nat) (s : State) : (drivePump n s).steadyCast = s.steadyCast :=
  steadyCast_of_record (drivePump_record n s)

theorem reofferPump_steady (s : State) : (reofferPump s).steadyCast = s.steadyCast := by
  unfold reofferPump
  split
  · exact drivePump_steady ..
  · rfl

theorem pausedEntry_steady (hc : s.castMeter.record = some c) (h : c.state = .metering) :
    (pausedEntry s).steadyCast = s.steadyCast := by
  unfold pausedEntry
  simp only [hc]
  rw [steadyCast_of_bare (raiseCast_bare ..), ← drivePump_steady 0 s]
  refine withCast_steady fun c' hc' => ?_
  rw [drivePump_record, hc] at hc'
  cases hc'
  simp [Cast.steady, h]

/-- A review of the pause causes moves a cast between METERING and PAUSED at most (R120). -/
theorem reviewPauses_steady (s : State) : (reviewPauses s).steadyCast = s.steadyCast := by
  unfold reviewPauses
  cases hc : s.castMeter.record with
  | none => rfl
  | some c =>
    have noted : (withCast (fun c' => { c' with pauses := nextPauses s c }) s).steadyCast = s.steadyCast :=
      withCast_steady fun _ _ => rfl
    have record : (withCast (fun c' => { c' with pauses := nextPauses s c }) s).castMeter.record
        = some { c with pauses := nextPauses s c } := by
      rw [withCast_castMeter, hc]
      rfl
    simp only
    cases state : c.state with
    | opening | settling => exact noted
    | charging | closed => rfl
    | metering =>
      simp only
      split
      · exact noted
      · exact (pausedEntry_steady record state).trans noted
    | paused =>
      simp only
      split
      · rw [steadyCast_of_bare (raiseCast_bare ..), drivePump_steady, ← noted]
        refine withCast_steady fun c' hc' => ?_
        rw [record] at hc'
        cases hc'
        simp [Cast.steady, state]
      · exact noted

theorem PitchPart.tried_steady (now : LoopTime) (r : OfferResult) (p : PitchPart) :
    (p.tried now r).steady = p.steady := by
  cases r <;> rfl

theorem tryIssue_steady (s : State) : (tryIssue s).steadyCast = s.steadyCast := by
  cases hc : s.castMeter.record with
  | none =>
    unfold tryIssue
    simp only [hc]
  | some c =>
    cases hp : c.pitch with
    | none =>
      unfold tryIssue
      simp only [hc, hp]
    | some p =>
      cases may : mayIssue s c p with
      | false => rw [tryIssue_held hc hp may]
      | true =>
        rw [tryIssue_tries hc hp may, withPitch_steady fun p => PitchPart.tried_steady ..]
        exact steadyCast_of_bare (offerDrive_bare ..)

theorem doseFrameLeft_steady (n : Nat) (s : State) : (doseFrameLeft n s).steadyCast = s.steadyCast := by
  unfold doseFrameLeft
  simp only
  rw [tryIssue_steady]
  split
  · exact withPitch_steady fun _ => rfl
  · rfl

theorem drainTells_steady (n : Nat) (s : State) : (drainTells n s).steadyCast = s.steadyCast := by
  induction n generalizing s with
  | zero => rfl
  | succ n ih =>
    unfold drainTells
    split
    · rfl
    · rename_i o rest _
      rw [ih]
      cases o with
      | boilUnit => exact steadyCast_of_record (congrArg CastMeter.record (boilFrameLeft_castMeter _))
      | pitchUnit c => exact doseFrameLeft_steady c _
      | agent | guardUnit | sequencer | castMeter => rfl

theorem settle_steady (s : State) : (settle s).steadyCast = s.steadyCast := by
  have synced := steadyCast_of_bare (syncConditions_bare (vessels.foldl refreshSync (drainTells 64 s)))
  have refreshed := steadyCast_of_record (congrArg CastMeter.record (refreshAll_castMeter vessels (drainTells 64 s)))
  exact synced.trans (refreshed.trans (drainTells_steady 64 s))

/-- A steady record meters as the record does (R116). -/
theorem Cast.steady_meters (c : Cast) : c.steady.state.meters = c.state.meters := by
  unfold Cast.steady
  cases c.state <;> rfl

/-! ### The correction factor (R117) -/

theorem correctionFactor_at (t : Tables) {i : Nat} (h : i ≤ 31) :
    correctionFactor t (100 * i : Int) = factorAt t i := by
  have inside : (clampInt (100 * i : Int) 0 3100).toNat = 100 * i := by
    rw [clampInt_inside] <;> omega
  have whole : 100 * i / 100 = i := by omega
  have rest : 100 * i % 100 = 0 := by omega
  unfold correctionFactor
  simp only [inside, whole, rest]
  split
  · rename_i last
    rw [last]
  · simp

theorem correctionFactor_clamped (t : Tables) (x : Int) :
    correctionFactor t x = correctionFactor t (clampInt x 0 3100) := by
  have twice : clampInt (clampInt x 0 3100) 0 3100 = clampInt x 0 3100 := by
    unfold clampInt
    omega
  unfold correctionFactor
  rw [twice]

theorem correctionFactor_below (t : Tables) {x : Int} (h : x ≤ 0) : correctionFactor t x = factorAt t 0 := by
  have low : clampInt x 0 3100 = 100 * (0 : Nat) := by
    unfold clampInt
    omega
  rw [correctionFactor_clamped, low, correctionFactor_at t (by decide)]

theorem correctionFactor_above (t : Tables) {x : Int} (h : 3100 ≤ x) : correctionFactor t x = factorAt t 31 := by
  have high : clampInt x 0 3100 = 100 * (31 : Nat) := by
    unfold clampInt
    omega
  rw [correctionFactor_clamped, high, correctionFactor_at t (by decide)]

/-! ### Metering (R116 to R118, R130) -/

/-- The pitch part's target for a new GV, and the lag test after it (R130, R136). -/
def PitchPart.retarget (t : Tables) (gv : Nat) (p : PitchPart) : PitchPart :=
  PitchPart.testLag (strainOf t p.strain).lagLimit
    { p with target := fit 64 (targetStrokes (strainOf t p.strain) p.rate gv) }

/-- What a flow sample is metered by: the tables, the correction factor, the gravity, and whether it is held (R117,
R118). -/
structure FlowBasis where
  tables  : Tables
  factor  : Nat
  gravity : Nat
  held    : Bool

/-- The basis of a flow sample taken in a state. -/
def State.flowBasis (s : State) : FlowBasis :=
  { tables := s.tables
    factor := (correctionFactor s.tables (valueOf s (lineRow s.tables).temperature)).toNat
    gravity := (valueOf s (lineRow s.tables).gravity).toNat
    held := !freshPoint s (lineRow s.tables).gravity }

/-- The record after a pulse step is metered, with the new GV taken by the pitch part (R118). -/
def Cast.metered (b : FlowBasis) (dp : Nat) (count : BitVec 32) (c : Cast) : Cast :=
  let d := c.meter (lineRow b.tables).k dp b.factor b.gravity b.held count
  { d with pitch := d.pitch.map (PitchPart.retarget b.tables d.gv) }

/-- The record after a flow sample (R116). -/
def Cast.flowed (b : FlowBasis) (count : BitVec 32) (c : Cast) : Cast :=
  if c.state.meters then
    match c.lastCount with
    | none => { c with lastCount := some count }
    | some last =>
      if (lineRow b.tables).maxPulses < (count - last).toNat then c.rebase count
      else c.metered b (count - last).toNat count
  else c

theorem PitchPart.testLag_steady (limit : Nat) (p : PitchPart) : (p.testLag limit).steady = p.steady.testLag limit := by
  unfold PitchPart.testLag
  by_cases set : p.pitchLag = true
  · rw [if_pos set, if_pos (show p.steady.pitchLag = true from set)]
    rfl
  · rw [if_neg set, if_neg (show ¬p.steady.pitchLag = true from set)]
    by_cases above : limit < p.lag
    · rw [if_pos above, if_pos (show limit < p.steady.lag from above)]
      rfl
    · rw [if_neg above, if_neg (show ¬limit < p.steady.lag from above)]

theorem PitchPart.retarget_steady (t : Tables) (gv : Nat) (p : PitchPart) :
    (p.retarget t gv).steady = p.steady.retarget t gv := PitchPart.testLag_steady ..

theorem Cast.steady_steady (c : Cast) : c.steady.steady = c.steady := by
  have pitch : (c.pitch.map PitchPart.steady).map PitchPart.steady = c.pitch.map PitchPart.steady := by
    rw [Option.map_map]
    rfl
  have state : (if c.steady.state = .paused then .metering else c.steady.state) = c.steady.state := by
    unfold Cast.steady
    cases c.state <;> rfl
  rw [Cast.steady, state]
  show ({ c.steady with pitch := (c.pitch.map PitchPart.steady).map PitchPart.steady } : Cast) = c.steady
  rw [pitch]
  rfl

/-- A change that commutes with what is set aside. -/
theorem Cast.metered_steady (b : FlowBasis) (dp : Nat) (count : BitVec 32) (c : Cast) :
    (c.metered b dp count).steady = (c.steady.metered b dp count).steady := by
  have pitch : ∀ gv : Nat, (c.pitch.map (PitchPart.retarget b.tables gv)).map PitchPart.steady
      = ((c.pitch.map PitchPart.steady).map (PitchPart.retarget b.tables gv)).map PitchPart.steady := by
    intro gv
    cases c.pitch with
    | none => rfl
    | some p =>
      exact congrArg some ((p.retarget_steady _ gv).trans (PitchPart.retarget_steady _ gv p.steady).symm)
  have state : (if c.steady.state = .paused then .metering else c.steady.state)
      = if c.state = .paused then .metering else c.state := congrArg Cast.state c.steady_steady
  unfold Cast.steady at state
  unfold Cast.metered Cast.meter Cast.steady
  simp only
  rw [pitch, state]

/-- Of the record a flow sample reads nothing that pausing and dosing may touch. -/
theorem Cast.flowed_steady (b : FlowBasis) (count : BitVec 32) (c : Cast) :
    (c.flowed b count).steady = (c.steady.flowed b count).steady := by
  have last : c.steady.lastCount = c.lastCount := rfl
  unfold Cast.flowed
  rw [c.steady_meters, last]
  split
  · split
    · exact congrArg (fun e : Cast => { e with lastCount := some count }) c.steady_steady.symm
    · split
      · exact congrArg (Cast.rebase count) c.steady_steady.symm
      · exact c.metered_steady ..
  · exact c.steady_steady.symm

theorem testLag_steady (s : State) :
    (testLag s).steadyCast
      = (withPitch (fun p => p.testLag (strainOf s.tables p.strain).lagLimit) s).steadyCast := reviewPauses_steady _

theorem withCast_record (hc : s.castMeter.record = some c) (f : Cast → Cast) :
    (withCast f s).castMeter.record = some (f c) := by
  rw [withCast_castMeter, hc]
  rfl

theorem withPitch_record (hc : s.castMeter.record = some c) (f : PitchPart → PitchPart) :
    (withPitch f s).castMeter.record = some { c with pitch := c.pitch.map f } := withCast_record hc _

/-- A new GV gives the pitch part its target, and the lag is tested (R130, R136). -/
theorem newGv_steady (hc : s.castMeter.record = some c) :
    (newGv s).steadyCast = some ({ c with pitch := c.pitch.map (PitchPart.retarget s.tables c.gv) } : Cast).steady := by
  unfold newGv
  simp only [hc]
  rw [tryIssue_steady, testLag_steady, steadyCast_of_some (withPitch_record (withPitch_record hc _) _)]
  show some ({ c with pitch := (c.pitch.map _).map _ } : Cast).steady = _
  rw [Option.map_map]
  rfl

section
variable (count : BitVec 32) (hc : s.castMeter.record = some c)
include hc

/-- Outside METERING, PAUSED and SETTLING a flow sample changes nothing (R116). -/
theorem flowSample_idle (h : ¬c.state.meters = true) : flowSample count s = s := by
  unfold flowSample
  simp only [hc]
  rw [if_neg h]

/-- The first count is only kept (R116). -/
theorem flowSample_first (h : c.state.meters = true) (hl : c.lastCount = none) :
    flowSample count s = withCast (fun c => { c with lastCount := some count }) s := by
  unfold flowSample
  simp only [hc]
  rw [if_pos h, hl]

/-- More pulses than the limit are rebased (R116). -/
theorem flowSample_rebased {last : BitVec 32} (h : c.state.meters = true) (hl : c.lastCount = some last)
    (exceeds : (lineRow s.tables).maxPulses < (count - last).toNat) :
    flowSample count s = raiseCast .meterRebased (.num (saturate 65535 c.rebases))
      (withCast (Cast.rebase count) s) := by
  unfold flowSample
  simp only [hc]
  rw [if_pos h, hl]
  exact if_pos exceeds

/-- Any other pulse step is metered (R118). -/
theorem flowSample_metered {last : BitVec 32} (h : c.state.meters = true) (hl : c.lastCount = some last)
    (within : ¬(lineRow s.tables).maxPulses < (count - last).toNat) :
    flowSample count s = newGv (withCast (Cast.meter (lineRow s.tables).k (count - last).toNat s.flowBasis.factor
      s.flowBasis.gravity s.flowBasis.held count) s) := by
  unfold flowSample
  simp only [hc]
  rw [if_pos h, hl]
  exact if_neg within

/-- What a flow sample makes of the record, but for what pausing and dosing may touch. -/
theorem flowSample_steady : (flowSample count s).steadyCast = some (c.flowed s.flowBasis count).steady := by
  unfold Cast.flowed
  by_cases h : c.state.meters = true
  · rw [if_pos h]
    cases hl : c.lastCount with
    | none =>
      rw [flowSample_first count hc h hl]
      exact steadyCast_of_some (withCast_record hc _)
    | some last =>
      simp only
      by_cases exceeds : (lineRow s.tables).maxPulses < (count - last).toNat
      · rw [if_pos (show (lineRow s.flowBasis.tables).maxPulses < _ from exceeds),
          flowSample_rebased count hc h hl exceeds,
          steadyCast_of_bare (raiseCast_bare ..)]
        exact steadyCast_of_some (withCast_record hc _)
      · rw [if_neg (show ¬(lineRow s.flowBasis.tables).maxPulses < _ from exceeds),
          flowSample_metered count hc h hl exceeds,
          newGv_steady (withCast_record hc _)]
        rfl
  · rw [if_neg h, flowSample_idle count hc h]
    exact steadyCast_of_some hc

end

end Sys2Proof.Machine
end

section
/-! The Sample Unit's laws (R22 to R27, R30): what a SAMPLE for the part brings, item by item, and whom an accepted
sample is delivered to. -/

namespace Sys2Proof.Machine

variable {s t : State} {v : Vessel} {r : Nat}

/-! ### The items of a SAMPLE (R22, R23, R26, R27) -/

theorem consumeFrame_sample {f : Frame} (h : f.kind = 0x01) (s : State) : consumeFrame f s = takeSample f s := by
  rw [consumeFrame_tapped (.inl h)]
  exact if_pos h

/-- A SAMPLE for the part brings its items in order (R9, R23). -/
theorem exec_sample {f : Frame} {items : List SampleItem} (l : Listening s) (g : f.Good) (kind : f.kind = 0x01)
    (hs : f.source ≠ s.stationAddress) (hh : f.hop.toNat < 64) (hd : f.dest = s.stationAddress)
    (hi : sampleItems f.payload = some items) :
    exec (.frameComplete f.bytes) s = .next (settle (items.foldl (takeItem f.source) s.heard)) := by
  rw [exec_consumed l g hs hh hd, consumeFrame_sample kind, takeSample, hi]
  rfl

/-- The entries after an item of a station's SAMPLE taken at a time (R22, R26, R27). -/
def itemEntries (tables : Tables) (source : Byte) (now : LoopTime) (points : List PointEntry) (i : SampleItem) :
    List PointEntry :=
  match findPoint tables source.toNat i.channel with
  | none => points
  | some r =>
    match itemValue (pointRow tables r) i with
    | none => points
    | some (x, clamped) =>
      let e := points.getD r .empty
      if i.quality = .good ∨ i.quality = .uncertain then
        points.set r
          { current := some ⟨x, now⟩, quality := i.quality, clamped := clamped
            previous := if e.quality = .stale then none else e.current, staleTimer := some now }
      else points.set r (if e.quality = .stale then e else { e with quality := .bad })

section
variable {source : Byte} {i : SampleItem} {x : Int} {clamped : Bool}

theorem takeItem_unknown (h : findPoint s.tables source.toNat i.channel = none) : takeItem source s i = s := by
  unfold takeItem
  rw [h]

theorem takeItem_ignored (h : findPoint s.tables source.toNat i.channel = some r)
    (hv : itemValue (pointRow s.tables r) i = none) : takeItem source s i = s := by
  unfold takeItem
  rw [h]
  simp only
  rw [hv]

variable (h : findPoint s.tables source.toNat i.channel = some r)
  (hv : itemValue (pointRow s.tables r) i = some (x, clamped))
include h hv

theorem itemEntries_accepted (hq : i.quality = .good ∨ i.quality = .uncertain) :
    itemEntries s.tables source s.loopTime s.points i
      = s.points.set r ((entryOf s r).accept x clamped i.quality s.loopTime) := by
  unfold itemEntries
  simp only [h, hv, if_pos hq]
  rfl

theorem itemEntries_bad (hq : ¬(i.quality = .good ∨ i.quality = .uncertain)) :
    itemEntries s.tables source s.loopTime s.points i = s.points.set r (entryOf s r).acceptBad := by
  unfold itemEntries
  simp only [h, hv, if_neg hq]
  rfl

/-- A BAD item marks the entry alone (R27). -/
theorem takeItem_bad (hq : ¬(i.quality = .good ∨ i.quality = .uncertain)) :
    takeItem source s i = withEntry r PointEntry.acceptBad s := by
  unfold takeItem
  rw [h]
  simp only
  rw [hv]
  cases e : i.quality with
  | good => exact absurd (.inl e) hq
  | uncertain => exact absurd (.inr e) hq
  | bad | stale => rfl

/-- An accepted item replaces the entry and is delivered (R26, R30). -/
theorem takeItem_accepted (hq : i.quality = .good ∨ i.quality = .uncertain) :
    takeItem source s i
      = settle (deliverSample r (withEntry r (fun e => e.accept x clamped i.quality s.loopTime) s)) := by
  unfold takeItem
  rw [h]
  simp only
  rw [hv]
  obtain e | e := hq <;> rw [e]

end

/-- The state with other entries of the points. -/
def withEntries (points : List PointEntry) (s : State) : State := { s with points := points }

/-- Outside the brewing blocks an item changes the entries of points alone. -/
theorem takeItem_outer (source : Byte) (s : State) (i : SampleItem) :
    (takeItem source s i).outer
      = (withEntries (itemEntries s.tables source s.loopTime s.points i) s).outer := by
  cases h : findPoint s.tables source.toNat i.channel with
  | none =>
    rw [takeItem_unknown h, itemEntries, h]
    rfl
  | some r =>
    cases hv : itemValue (pointRow s.tables r) i with
    | none =>
      have same : itemEntries s.tables source s.loopTime s.points i = s.points := by
        unfold itemEntries
        simp only [h, hv]
      rw [takeItem_ignored h hv, same]
      rfl
    | some p =>
      obtain ⟨x, clamped⟩ := p
      by_cases hq : i.quality = .good ∨ i.quality = .uncertain
      · rw [takeItem_accepted h hv hq, settle_outer, deliverSample_outer, itemEntries_accepted h hv hq]
        rfl
      · rw [takeItem_bad h hv hq, itemEntries_bad h hv hq]
        rfl

theorem loopTime_of_outer (h : t.outer = s.outer) : t.loopTime = s.loopTime := by
  show t.outer.loopTime = s.outer.loopTime
  rw [h]

theorem points_of_outer (h : t.outer = s.outer) : t.points = s.points := by
  show t.outer.points = s.outer.points
  rw [h]

/-- Two states that differ at most in the brewing blocks differ so after the same entries. -/
theorem withEntries_outer {points : List PointEntry} (h : t.outer = s.outer) :
    (withEntries points t).outer = (withEntries points s).outer := by
  have parts : ∀ u : State, (withEntries points u).outer = { u.outer with points := points } := fun _ => rfl
  rw [parts, parts, h]

theorem takeItems_outer (source : Byte) (items : List SampleItem) (s : State) :
    (items.foldl (takeItem source) s).outer
      = (withEntries (items.foldl (itemEntries s.tables source s.loopTime) s.points) s).outer := by
  induction items generalizing s with
  | nil => rfl
  | cons i items ih =>
    have one := takeItem_outer source s i
    have tables : (takeItem source s i).tables = s.tables := (tables_of_outer one).trans rfl
    have time : (takeItem source s i).loopTime = s.loopTime := (loopTime_of_outer one).trans rfl
    have points : (takeItem source s i).points = itemEntries s.tables source s.loopTime s.points i :=
        (points_of_outer one).trans rfl
    rw [List.foldl_cons, ih, tables, time, points, List.foldl_cons]
    exact (withEntries_outer one).trans rfl

/-- What a SAMPLE of a BAD item leaves of a STALE entry: itself (R27). -/
theorem withEntry_bad_stale (h : (entryOf s r).quality = .stale) : withEntry r PointEntry.acceptBad s = s := by
  have same : PointEntry.acceptBad (entryOf s r) = entryOf s r := if_pos h
  have points : s.points.set r (entryOf s r) = s.points := by
    unfold entryOf
    by_cases inside : r < s.points.length
    · rw [List.getD_eq_getElem _ _ inside, List.set_getElem_self]
    · exact List.set_eq_of_length_le (by omega)
  unfold withEntry
  rw [same, points]

theorem withEntry_bad (h : (entryOf s r).quality ≠ .stale) :
    withEntry r PointEntry.acceptBad s
      = { s with points := s.points.set r { entryOf s r with quality := .bad } } := by
  have marked : PointEntry.acceptBad (entryOf s r) = { entryOf s r with quality := .bad } := if_neg h
  unfold withEntry
  rw [marked]

/-! ### Deliveries (R30) -/

/-- A vessel's valid row names the point as its temperature point. -/
def namesPv (t : Tables) (r : Nat) (v : Vessel) : Bool := vesselValid t v && (vesselRow t v).pv == r

/-- A vessel's valid row names the point as its level point. -/
def namesLevel (t : Tables) (r : Nat) (v : Vessel) : Bool := vesselValid t v && (vesselRow t v).level == r

/-- The valid Line Table row names the point. -/
def namesLine (t : Tables) (r : Nat) : Bool :=
  lineValid t && (r == (lineRow t).flow || r == (lineRow t).temperature || r == (lineRow t).gravity)

theorem deliverVessel_eq (r : Nat) (s : State) (v : Vessel) :
    deliverVessel r s v =
      let u := if namesPv s.tables r v then pvSample v r s else s
      if namesLevel s.tables r v then levelSample v r u else u := by
  unfold deliverVessel namesPv namesLevel
  cases vesselValid s.tables v with
  | false => rfl
  | true => simp

theorem deliverVessels_none {l : List Vessel} (hp : ∀ w ∈ l, namesPv s.tables r w = false)
    (hl : ∀ w ∈ l, namesLevel s.tables r w = false) : l.foldl (deliverVessel r) s = s := by
  induction l with
  | nil => rfl
  | cons w l ih =>
    have skipped : deliverVessel r s w = s := by
      rw [deliverVessel_eq, hp w (by simp), hl w (by simp)]
      rfl
    rw [List.foldl_cons, skipped]
    exact ih (fun w hw => hp w (by simp [hw])) fun w hw => hl w (by simp [hw])

/-- Each vessel has its one place in vessel order. -/
theorem vessels_split (v : Vessel) : ∃ before after, vessels = before ++ v :: after ∧ v ∉ before ∧ v ∉ after := by
  cases v with
  | mash => exact ⟨[], [.lauter, .kettle, .whirlpool], rfl, by decide, by decide⟩
  | lauter => exact ⟨[.mash], [.kettle, .whirlpool], rfl, by decide, by decide⟩
  | kettle => exact ⟨[.mash, .lauter], [.whirlpool], rfl, by decide, by decide⟩
  | whirlpool => exact ⟨[.mash, .lauter, .kettle], [], rfl, by decide, by decide⟩

/-- A point that one vessel's row alone names is delivered to that vessel. -/
theorem deliverVessels_one (hp : ∀ w, w ≠ v → namesPv s.tables r w = false)
    (hl : ∀ w, w ≠ v → namesLevel s.tables r w = false) :
    vessels.foldl (deliverVessel r) s = deliverVessel r s v := by
  obtain ⟨before, after, order, notBefore, notAfter⟩ := vessels_split v
  have others : ∀ l : List Vessel, v ∉ l → ∀ w ∈ l, w ≠ v := fun l hl w hw e => hl (e ▸ hw)
  have tables : (deliverVessel r s v).tables = s.tables := tables_of_outer (deliverVessel_outer r s v)
  rw [order, List.foldl_append, List.foldl_cons,
    deliverVessels_none (fun w hw => hp w (others _ notBefore w hw)) fun w hw => hl w (others _ notBefore w hw)]
  refine deliverVessels_none (fun w hw => ?_) fun w hw => ?_
  · rw [tables]
    exact hp w (others _ notAfter w hw)
  · rw [tables]
    exact hl w (others _ notAfter w hw)

theorem castSample_unnamed (h : namesLine s.tables r = false) : castSample r s = s := by
  unfold castSample
  exact if_neg (by rw [show (lineValid s.tables && _) = false from h]; decide)

section
variable {pv level : List Vessel} {line : Bool}

theorem DeliversTo.namesPv_iff (d : DeliversTo s r pv level line) (v : Vessel) :
    namesPv s.tables r v = true ↔ v ∈ pv := by
  rw [← d.pv, List.mem_filter]
  exact (and_iff_right (by cases v <;> decide)).symm

theorem DeliversTo.namesLevel_iff (d : DeliversTo s r pv level line) (v : Vessel) :
    namesLevel s.tables r v = true ↔ v ∈ level := by
  rw [← d.level, List.mem_filter]
  exact (and_iff_right (by cases v <;> decide)).symm

theorem DeliversTo.namesPv_eq_false (d : DeliversTo s r pv level line) (h : v ∉ pv) : namesPv s.tables r v = false := by
  rw [← Bool.not_eq_true, d.namesPv_iff]
  exact h

theorem DeliversTo.namesLevel_eq_false (d : DeliversTo s r pv level line) (h : v ∉ level) :
    namesLevel s.tables r v = false := by
  rw [← Bool.not_eq_true, d.namesLevel_iff]
  exact h

/-- Whom a point is delivered to is a matter of the tables and of how many entries there are. -/
theorem DeliversTo.sampled (d : DeliversTo s r pv level line) (i : SampleItem) (x : Int) (clamped : Bool) :
    DeliversTo (s.sampled i r x clamped) r pv level line :=
  ⟨by rw [State.sampled, List.length_set]; exact d.entry, d.pv, d.level, d.line⟩

end

/-- A point that only a vessel's temperature is goes to its sequencer. -/
theorem DeliversTo.pvSample (d : DeliversTo s r [v] [] false) : deliverSample r s = pvSample v r s := by
  have delivered : deliverVessel r s v = Machine.pvSample v r s := by
    rw [deliverVessel_eq, (d.namesPv_iff v).2 (by simp), d.namesLevel_eq_false (v := v) (by simp)]
    rfl
  unfold deliverSample
  rw [deliverVessels_one (v := v) (fun w hw => d.namesPv_eq_false (by simp [hw]))
    fun w _ => d.namesLevel_eq_false (by simp),
    delivered]
  refine castSample_unnamed ?_
  rw [tables_of_outer (pvSample_outer v r s)]
  exact d.line

/-- A point that only a vessel's level is goes to its sequencer. -/
theorem DeliversTo.levelSample (d : DeliversTo s r [] [v] false) : deliverSample r s = levelSample v r s := by
  have delivered : deliverVessel r s v = Machine.levelSample v r s := by
    rw [deliverVessel_eq, (d.namesLevel_iff v).2 (by simp), d.namesPv_eq_false (v := v) (by simp)]
    rfl
  unfold deliverSample
  rw [deliverVessels_one (v := v) (fun w _ => d.namesPv_eq_false (by simp))
    fun w hw => d.namesLevel_eq_false (by simp [hw]),
    delivered]
  refine castSample_unnamed ?_
  rw [tables_of_outer (levelSample_outer v r s)]
  exact d.line

/-- A point that only the line is goes to the Cast Meter. -/
theorem DeliversTo.castSample (d : DeliversTo s r [] [] true) : deliverSample r s = castSample r s := by
  unfold deliverSample
  rw [deliverVessels_none (fun w _ => d.namesPv_eq_false (by simp)) fun w _ => d.namesLevel_eq_false (by simp)]

/-- A SAMPLE of one accepted item is delivered with its entry replaced, after which the blocks settle twice: after the
item and after the frame. -/
theorem Samples.exec {f : Frame} {i : SampleItem} {x : Int} {clamped : Bool} (h : Samples f i r x clamped s) :
    Machine.exec (.frameComplete f.bytes) s = .next (settle (settle (deliverSample r (s.sampled i r x clamped)))) := by
  rw [exec_sample h.toListening h.good h.kind h.source h.hop h.dest h.items, List.foldl_cons, List.foldl_nil,
    takeItem_accepted (s := s.heard) h.point h.value h.quality]
  rfl

/-- The point's own entry after an accepted item. -/
theorem entryOf_sampled {i : SampleItem} (x : Int) (clamped : Bool) (h : r < s.points.length) :
    entryOf (s.sampled i r x clamped) r =
      { current := some ⟨x, s.loopTime⟩, quality := i.quality, clamped := clamped
        previous := formerReading s r, staleTimer := some s.loopTime } := by
  unfold entryOf State.sampled
  simp [h]

theorem entryOf_sampled_other {i : SampleItem} (x : Int) (clamped : Bool) {n : Nat} (h : n ≠ r) :
    entryOf (s.sampled i r x clamped) n = entryOf s n := by
  unfold entryOf State.sampled
  simp [Ne.symm h]

theorem valueOf_sampled {i : SampleItem} (x : Int) (clamped : Bool) (h : r < s.points.length) :
    valueOf (s.sampled i r x clamped) r = x := by
  unfold valueOf
  rw [entryOf_sampled x clamped h]

theorem freshPoint_sampled {i : SampleItem} (x : Int) (clamped : Bool) (h : r < s.points.length)
    (hq : i.quality = .good ∨ i.quality = .uncertain) : freshPoint (s.sampled i r x clamped) r = true := by
  unfold freshPoint PointEntry.fresh
  rw [entryOf_sampled x clamped h]
  obtain e | e := hq <;> simp [e]

theorem valueOf_sampled_other {i : SampleItem} (x : Int) (clamped : Bool) {n : Nat} (h : n ≠ r) :
    valueOf (s.sampled i r x clamped) n = valueOf s n := by
  unfold valueOf
  rw [entryOf_sampled_other x clamped h]

theorem freshPoint_sampled_other {i : SampleItem} (x : Int) (clamped : Bool) {n : Nat} (h : n ≠ r) :
    freshPoint (s.sampled i r x clamped) n = freshPoint s n := by
  unfold freshPoint
  rw [entryOf_sampled_other x clamped h]

end Sys2Proof.Machine
end

section
/-! A flow sample metered, alone and as the frame that brings it (R30, R116 to R118, R130, R136). -/

namespace Sys2Proof.Machine

variable {s t : State} {c d : Cast} {r : Nat}

/-- The product of a pulse step goes into the volume and the remainder with nothing lost, and the volume's gain into the
gravity volume (R118). -/
theorem Cast.meter_exact {k dp f g : Nat} (held : Bool) (count : BitVec 32)
    (room : 1000000 * c.v20 + c.r + dp * k * f < 1000000 * 2 ^ 64) :
    let d := c.meter k dp f g held count
    d.r < 1000000 ∧ 1000000 * d.v20 + d.r = 1000000 * c.v20 + c.r + dp * k * f
      ∧ (c.gv + g * (d.v20 - c.v20) < 2 ^ 64 → d.gv = c.gv + g * (d.v20 - c.v20)) := by
  intro d
  have rest : d.r = (dp * k * f + c.r) % 1000000 := rfl
  have volume : d.v20 = c.v20 + (dp * k * f + c.r) / 1000000 := fit_of_lt (by omega)
  have gain : d.v20 - c.v20 = (dp * k * f + c.r) / 1000000 := by omega
  refine ⟨by omega, by omega, fun small => ?_⟩
  rw [gain] at small ⊢
  exact fit_of_lt small

/-- What a record shows beside what is set aside is the same for the same steady record. -/
theorem Cast.read_of_steady {α : Type} {e : Cast} (same : d.steady = e.steady) (f : Cast → α)
    (hf : ∀ e, f e.steady = f e := by intros; rfl) : f d = f e := by
  rw [← hf d, same, hf]

theorem PitchPart.read_of_steady {α : Type} {p q : PitchPart} (same : p.steady = q.steady) (f : PitchPart → α)
    (hf : ∀ e, f e.steady = f e := by intros; rfl) : f p = f q := by
  rw [← hf p, same, hf]

theorem Cast.stands_of_steady {e : Cast} (same : d.steady = e.steady) :
    (d.v20 = e.v20 ∧ d.r = e.r ∧ d.gv = e.gv ∧ d.lineVolume = e.lineVolume) ∧ d.lastCount = e.lastCount :=
  ⟨⟨read_of_steady same Cast.v20, read_of_steady same Cast.r, read_of_steady same Cast.gv,
    read_of_steady same Cast.lineVolume⟩, read_of_steady same Cast.lastCount⟩

/-- What a count after another makes of an open cast's record (R116 to R118): with more pulses than the limit it is
rebased, and any other step is metered exactly. -/
def Cast.Metered (s : State) (count last : BitVec 32) (c d : Cast) : Prop :=
  let line := lineRow s.tables
  let f := (correctionFactor s.tables (valueOf s line.temperature)).toNat
  let g := (valueOf s line.gravity).toNat
  let stands := fun d : Cast => d.v20 = c.v20 ∧ d.r = c.r ∧ d.gv = c.gv ∧ d.lineVolume = c.lineVolume
  let dp := (count - last).toNat
  d.lastCount = some count ∧ d.number = c.number
    ∧ d.brew = c.brew ∧ d.tariffSeq = c.tariffSeq ∧ d.endCause = c.endCause
    ∧ (line.maxPulses < dp →
        stands d ∧ d.rebases = min 65535 (c.rebases + 1) ∧ d.flags.meterRebased = true)
    ∧ (dp ≤ line.maxPulses → 1000000 * c.v20 + c.r + dp * line.k * f < 1000000 * 2 ^ 64 →
        d.r < 1000000 ∧ 1000000 * d.v20 + d.r = 1000000 * c.v20 + c.r + dp * line.k * f
          ∧ (c.gv + g * (d.v20 - c.v20) < 2 ^ 64 → d.gv = c.gv + g * (d.v20 - c.v20))
          ∧ d.rebases = c.rebases
          ∧ (d.flags.gravityHeld = true ↔ c.flags.gravityHeld = true ∨ freshPoint s line.gravity = false))

/-- What is metered is no matter of pausing and dosing. -/
theorem Cast.Metered.of_steady {count last : BitVec 32} {e : Cast} (h : c.Metered s count last d)
    (same : e.steady = d.steady) :
    c.Metered s count last e := by
  rw [Cast.read_of_steady same (c.Metered s count last)]
  exact h

section
variable {count last : BitVec 32} (meters : c.state.meters = true) (hl : c.lastCount = some last)
include meters hl

theorem Cast.flowed_rebased (exceeds : (lineRow s.tables).maxPulses < (count - last).toNat) :
    c.flowed s.flowBasis count = c.rebase count := by
  unfold Cast.flowed
  rw [if_pos meters, hl]
  exact if_pos exceeds

theorem Cast.flowed_metered (within : (count - last).toNat ≤ (lineRow s.tables).maxPulses) :
    c.flowed s.flowBasis count = c.metered s.flowBasis (count - last).toNat count := by
  unfold Cast.flowed
  rw [if_pos meters, hl]
  exact if_neg (Nat.not_lt.2 within)

theorem Cast.metered_of_flowed : c.Metered s count last (c.flowed s.flowBasis count) := by
  unfold Cast.Metered
  by_cases exceeds : (lineRow s.tables).maxPulses < (count - last).toNat
  · rw [Cast.flowed_rebased meters hl exceeds]
    exact ⟨rfl, rfl, rfl, rfl, rfl, fun _ => ⟨⟨rfl, rfl, rfl, rfl⟩, rfl, rfl⟩,
      fun within => absurd exceeds (Nat.not_lt.2 within)⟩
  · rw [Cast.flowed_metered meters hl (Nat.not_lt.1 exceeds)]
    refine ⟨rfl, rfl, rfl, rfl, rfl, fun h => absurd h exceeds, fun _ room => ?_⟩
    obtain ⟨rest, exact_, gravity⟩ := Cast.meter_exact s.flowBasis.held count (g := s.flowBasis.gravity) room
    refine ⟨rest, exact_, gravity, rfl, ?_⟩
    show (c.flags.gravityHeld || !freshPoint s (lineRow s.tables).gravity) = true ↔ _
    rw [Bool.or_eq_true, Bool.not_eq_true']

end

/-- The flag after the lag test: the lag is above the limit, or above half of it if the flag was set (R136). -/
theorem PitchPart.testLag_pitchLag (p : PitchPart) (limit : Nat) :
    (p.testLag limit).pitchLag = true ↔ (if p.pitchLag then limit / 2 else limit) < p.lag := by
  cases set : p.pitchLag with
  | true =>
    rw [PitchPart.testLag_of_lag limit set]
    exact decide_eq_true_iff
  | false =>
    by_cases above : limit < p.lag
    · rw [PitchPart.testLag_above set above]
      exact iff_of_true rfl above
    · rw [PitchPart.testLag_below set (Nat.not_lt.1 above)]
      exact iff_of_false (by rw [set]; nofun) above

/-- The pitch part's target after a new GV, and the flag by the limit or half of it (R130, R136). -/
theorem PitchPart.retarget_due {t : Tables} {p : PitchPart} {gv : Nat}
    (room : targetStrokes (strainOf t p.strain) p.rate gv < 2 ^ 64) :
    let due := targetStrokes (strainOf t p.strain) p.rate gv
    let limit := (strainOf t p.strain).lagLimit
    let q := p.retarget t gv
    q.target = due ∧ q.strain = p.strain ∧ q.rate = p.rate
      ∧ (q.pitchLag = true ↔ (if p.pitchLag then limit / 2 else limit) < due - (p.confirmed + p.unconfirmed)) := by
  intro due limit q
  have target : q = PitchPart.testLag limit { p with target := due } := by
    show PitchPart.testLag limit { p with target := fit 64 due } = _
    rw [fit_of_lt room]
  have flags := PitchPart.testLag_flags { p with target := due } limit
  refine ⟨by rw [target, flags], by rw [target, flags], by rw [target, flags], ?_⟩
  rw [target]
  exact PitchPart.testLag_pitchLag { p with target := due } limit

/-- The pitch part of a metered record, but for the exchange of strokes. -/
theorem Cast.metered_pitch {b : FlowBasis} {dp : Nat} {count : BitVec 32} {p : PitchPart} (hp : c.pitch = some p)
    (same : d.steady = (c.metered b dp count).steady) :
    ∃ q, d.pitch = some q ∧ q.steady = (p.retarget b.tables d.gv).steady := by
  have gravity : d.gv = (c.metered b dp count).gv := Cast.read_of_steady same Cast.gv
  have pitch : d.pitch.map PitchPart.steady =
      (c.pitch.map (PitchPart.retarget b.tables (c.metered b dp count).gv)).map PitchPart.steady :=
    congrArg Cast.pitch same
  rw [hp, ← gravity] at pitch
  exact Option.map_eq_some_iff.1 pitch

/-! ### The frame that brings a flow sample (R30) -/

theorem flowBasis_of_outer (h : t.outer = s.outer) : t.flowBasis = s.flowBasis := by
  show t.outer.flowBasis = s.outer.flowBasis
  rw [h]

theorem valueOf_of_outer (h : t.outer = s.outer) (n : Nat) : valueOf t n = valueOf s n := by
  show valueOf t.outer n = valueOf s.outer n
  rw [h]

theorem flowBasis_sampled {i : SampleItem} (x : Int) (clamped : Bool) (ht : (lineRow s.tables).temperature ≠ r)
    (hg : (lineRow s.tables).gravity ≠ r) : (s.sampled i r x clamped).flowBasis = s.flowBasis := by
  unfold State.flowBasis
  rw [show (s.sampled i r x clamped).tables = s.tables from rfl, valueOf_sampled_other x clamped ht,
    valueOf_sampled_other x clamped hg, freshPoint_sampled_other x clamped hg]

/-- An accepted sample of the line's flow point is metered into the open cast's record (R30, R116). -/
theorem castSample_flow (hc : s.castMeter.record = some c) (named : namesLine s.tables r = true)
    (flow : (lineRow s.tables).flow = r) :
    (castSample r s).steadyCast = some (c.flowed s.flowBasis (BitVec.ofInt 32 (valueOf s r))).steady := by
  have reviewed : (reofferPump (reviewPauses s)).outer = s.outer :=
    outer_of_works ((reofferPump_works _).trans (reviewPauses_works s))
  have stands : (reofferPump (reviewPauses s)).steadyCast = some c.steady := by
    rw [reofferPump_steady, reviewPauses_steady, steadyCast_of_some hc]
  obtain ⟨d, hd, same⟩ := record_of_steadyCast stands
  have flowed := flowSample_steady (BitVec.ofInt 32 (valueOf (reofferPump (reviewPauses s)) r)) hd
  rw [valueOf_of_outer reviewed, flowBasis_of_outer reviewed, Cast.flowed_steady, same, ← Cast.flowed_steady] at flowed
  rw [← flowed, ← valueOf_of_outer reviewed r]
  have names : (lineValid s.tables && (r == (lineRow s.tables).flow || r == (lineRow s.tables).temperature
      || r == (lineRow s.tables).gravity)) = true := named
  unfold castSample
  simp only
  rw [if_pos names, if_pos flow.symm]
  split
  · exact tryIssue_steady _
  · rfl

/-- Settles O43. -/
theorem flowSamplesAreMetered : Obligations.FlowSamplesAreMetered := by
  refine ⟨fun t x i hi hx => ?_, fun t x => ⟨fun h => correctionFactor_below t h, fun h => correctionFactor_above t h⟩,
    fun c count s hc => ?_⟩
  · rw [hx]
    exact correctionFactor_at t hi
  intro line f g meters stands metered
  have meters_iff : meters ↔ c.state.meters = true := (CastState.meters_iff c.state).symm
  refine ⟨fun h => ?_, fun h first => ?_, fun last h hl => ?_,
    fun m i r x clamped hs deliver flow temperature gravity hx => ?_⟩
  · exact flowSample_idle count hc fun x => h (meters_iff.2 x)
  · rw [flowSample_first count hc (meters_iff.1 h) first, withCast, hc]
    rfl
  · by_cases exceeds : line.maxPulses < (count - last).toNat
    · refine ⟨c.rebase count, ?_, ?_, fun _ => rfl⟩
      · rw [flowSample_rebased count hc (meters_iff.1 h) hl exceeds, castMeter_of_bare (raiseCast_bare ..)]
        exact withCast_record hc _
      · have exactly := Cast.metered_of_flowed (s := s) (count := count) (meters_iff.1 h) hl
        rw [Cast.flowed_rebased (meters_iff.1 h) hl exceeds] at exactly
        exact exactly
    · obtain ⟨d, hd, same⟩ := record_of_steadyCast (flowSample_steady count hc)
      exact ⟨d, hd, (Cast.metered_of_flowed (meters_iff.1 h) hl).of_steady same, fun x => absurd x exceeds⟩
  · have record : (s.sampled i r x clamped).castMeter.record = some c := hc
    have flowed := castSample_flow record deliver.line flow
    rw [flowBasis_sampled x clamped temperature gravity, valueOf_sampled x clamped deliver.entry, ← hx] at flowed
    have settled : (settle (settle (deliverSample r (s.sampled i r x clamped)))).steadyCast
        = some (c.flowed s.flowBasis count).steady := by
      rw [settle_steady, settle_steady, (deliver.sampled i x clamped).castSample, flowed]
    obtain ⟨d, hd, same⟩ := record_of_steadyCast settled
    refine ⟨_, d, hs.exec, hd, fun h => ?_, fun h first => ?_, fun last h hl => ⟨?_, fun p hp within => ?_⟩⟩
    · have idle : c.flowed s.flowBasis count = c := if_neg fun x => h (meters_iff.2 x)
      rw [idle] at same
      exact Cast.stands_of_steady same
    · have kept : c.flowed s.flowBasis count = { c with lastCount := some count } := by
        unfold Cast.flowed
        rw [if_pos (meters_iff.1 h), first]
      rw [kept] at same
      exact Cast.stands_of_steady same
    · exact (Cast.metered_of_flowed (meters_iff.1 h) hl).of_steady same
    · intro due limit room
      rw [Cast.flowed_metered (meters_iff.1 h) hl within] at same
      obtain ⟨q, hq, steady⟩ := Cast.metered_pitch hp same
      obtain ⟨target, strain, rate, lag⟩ := PitchPart.retarget_due room
      refine ⟨q, hq, (PitchPart.read_of_steady steady PitchPart.target).trans target,
        (PitchPart.read_of_steady steady PitchPart.strain).trans strain,
        (PitchPart.read_of_steady steady PitchPart.rate).trans rate, ?_⟩
      rw [show q.pitchLag = (p.retarget s.tables d.gv).pitchLag from PitchPart.read_of_steady steady PitchPart.pitchLag]
      exact lag

end Sys2Proof.Machine
end

section
/-! What a sequencer moves beside its seat when it goes on (R49, R65, R78, R79): the hold slots, the vessels, the brews'
mash records and its position; then what a step's completion and a handover come to. -/

namespace Sys2Proof.Machine

variable {s t u : State} {v w : Vessel}

/-! ### Drives and events touch sequencers, the loop and the agent alone -/

/-- Set aside: what `State.bare` sets aside, and the sequencers. -/
def State.still (s : State) : State := { s.bare with seqs := .all .cleared }

theorem still_of_bare (h : t.bare = s.bare) : t.still = s.still := by
  unfold State.still
  rw [h]

theorem outer_of_still (h : t.still = s.still) : t.outer = s.outer := by
  show t.still.outer = s.still.outer
  rw [h]

theorem vessels_of_still (h : t.still = s.still) : t.vessels = s.vessels := by
  show t.still.vessels = s.still.vessels
  rw [h]

theorem slots_of_still (h : t.still = s.still) : t.slots = s.slots := by
  show t.still.slots = s.still.slots
  rw [h]

theorem brews_of_still (h : t.still = s.still) : t.brews = s.brews := by
  show t.still.brews = s.still.brews
  rw [h]

@[simp] theorem withSeq_still (v : Vessel) (f : Sequencer → Sequencer) (s : State) :
    (withSeq v f s).still = s.still := rfl
@[simp] theorem raise_still (k : EventKind) (u : Subject) (b : Option Nat) (a : EventArg) (s : State) :
    (raise k u b a s).still = s.still := still_of_bare (raise_bare ..)
@[simp] theorem raiseVessel_still (k : EventKind) (v : Vessel) (a : EventArg) (s : State) :
    (raiseVessel k v a s).still = s.still := raise_still ..
@[simp] theorem seqOffer_still (v : Vessel) (u : UnsentOffer) (s : State) : (seqOffer v u s).2.still = s.still := by
  rw [seqOffer_eq]
  exact (withSeq_still ..).trans (still_of_bare (offerDrive_bare ..))

@[simp] theorem stepDrive_still (v : Vessel) (u : UnsentOffer) (s : State) : (stepDrive v u s).2.still = s.still := by
  rw [stepDrive_eq]
  simp only
  split <;> simp

@[simp] theorem transferDrive_still (v : Vessel) (r : Option Nat) (d : Nat) (s : State) :
    (transferDrive v r d s).still = s.still := by
  unfold transferDrive
  split
  · exact stepDrive_still ..
  · rfl

@[simp] theorem transferOn_still (v : Vessel) (st : StepRow) (s : State) : (transferOn v st s).still = s.still := by
  simp [transferOn]
@[simp] theorem transferOff_still (v : Vessel) (st : StepRow) (s : State) : (transferOff v st s).still = s.still := by
  simp [transferOff]

@[simp] theorem offerHeat_still (v : Vessel) (d : Nat) (s : State) : (offerHeat v d s).still = s.still := by
  unfold offerHeat
  simp only
  split
  · split <;> simp
  · rfl

@[simp] theorem forceZero_still (v : Vessel) (s : State) : (forceZero v s).still = s.still := by
  unfold forceZero
  split <;> simp

@[simp] theorem heatDemand_still (v : Vessel) (d : Nat) (s : State) : (heatDemand v d s).still = s.still := by
  unfold heatDemand
  simp only
  split <;> simp

@[simp] theorem offerStepFrame_still (v : Vessel) (st : StepRow) (s : State) :
    (offerStepFrame v st s).2.still = s.still := by
  unfold offerStepFrame
  split
  · rename_i row _
    exact stepDrive_still v { row := row, demand := st.value, ofStep := true } s
  · rfl

/-! ### Hold slots (R49) -/

theorem slotHold_freeSlot (i n : Nat) (s : State) :
    slotHold (freeSlot i s) n = if n = i then none else slotHold s n := by
  unfold slotHold freeSlot
  by_cases e : n = i
  · rw [if_pos e, e]
    by_cases inside : i < s.slots.length <;> simp [inside]
  · rw [if_neg e]
    simp [Ne.symm e]

theorem slotHold_congr (h : t.slots = s.slots) (n : Nat) : slotHold t n = slotHold s n := by
  unfold slotHold
  rw [h]

theorem slotHold_emptySlot (p : Hold → Bool) (s : State) (i n : Nat) :
    slotHold (emptySlot p s i) n = if n = i then (slotHold s n).filter fun h => !p h else slotHold s n := by
  unfold emptySlot
  by_cases e : n = i
  · rw [if_pos e, e]
    cases held : slotHold s i with
    | none => simpa using held
    | some h =>
      simp only
      by_cases gone : p h = true
      · rw [if_pos gone, slotHold_congr (slots_of_still (raiseVessel_still ..)), slotHold_freeSlot, if_pos rfl]
        exact (if_neg (by simp [gone])).symm
      · rw [if_neg gone, held]
        exact (if_pos (by simp [gone])).symm
  · rw [if_neg e]
    split
    · split
      · rw [slotHold_congr (slots_of_still (raiseVessel_still ..)), slotHold_freeSlot, if_neg e]
      · rfl
    · rfl

/-- Every slot whose frame satisfies `p` is emptied, and no other (R49). -/
theorem slotHold_emptySlots (p : Hold → Bool) (s : State) {n : Nat} (h : n < 4) :
    slotHold (emptySlots p s) n = (slotHold s n).filter fun h => !p h := by
  unfold emptySlots
  simp only [List.foldl_cons, List.foldl_nil, slotHold_emptySlot]
  match n, h with
  | 0, _ | 1, _ | 2, _ | 3, _ => simp

theorem slotHold_emptySlots_beyond (p : Hold → Bool) (s : State) {n : Nat} (h : 4 ≤ n) :
    slotHold (emptySlots p s) n = slotHold s n := by
  unfold emptySlots
  simp only [List.foldl_cons, List.foldl_nil, slotHold_emptySlot]
  rw [if_neg (by omega), if_neg (by omega), if_neg (by omega), if_neg (by omega)]

/-- Set aside as well: the hold slots. -/
def State.calm (s : State) : State := { s.still with slots := [] }

theorem calm_of_still (h : t.still = s.still) : t.calm = s.calm := by
  unfold State.calm
  rw [h]

theorem vessels_of_calm (h : t.calm = s.calm) : t.vessels = s.vessels := by
  show t.calm.vessels = s.calm.vessels
  rw [h]

theorem brews_of_calm (h : t.calm = s.calm) : t.brews = s.brews := by
  show t.calm.brews = s.calm.brews
  rw [h]

/-- Emptying slots touches the slots and the events. -/
theorem emptySlots_calm (p : Hold → Bool) (s : State) : (emptySlots p s).calm = s.calm := by
  have one : ∀ (i : Nat) (s : State), (emptySlot p s i).calm = s.calm := by
    intro i s
    unfold emptySlot
    split
    · split
      · exact (calm_of_still (raiseVessel_still ..)).trans rfl
      · rfl
    · rfl
  unfold emptySlots
  generalize [0, 1, 2, 3] = is
  induction is generalizing s with
  | nil => rfl
  | cons i is ih => rw [List.foldl_cons, ih, one]

/-! ### What a sequencer moves beside its seat -/

/-- Of a brew its number and its mash record but for the count of steps (R87). -/
def Brew.rested (b : Brew) : Nat × Option (Nat × Nat) := (b.number, b.mash.map fun m => (m.rest, m.deviation))

/-- The mash records of the brews, but for the count of steps. -/
def State.rests (s : State) : List (Option (Nat × Option (Nat × Nat))) := s.brews.map (Option.map Brew.rested)

theorem rests_of_brews (h : t.brews = s.brews) : t.rests = s.rests := by
  unfold State.rests
  rw [h]

theorem withBrew_rests {n : Nat} {f : Brew → Brew} (h : ∀ b, (f b).rested = b.rested) :
    (withBrew n f s).rests = s.rests := by
  have same : ∀ b : Option Brew,
      (b.map fun b => if b.number = n then f b else b).map Brew.rested = b.map Brew.rested := by
    intro b
    cases b with
    | none => rfl
    | some b =>
      simp only [Option.map_some]
      split
      · rw [h]
      · rfl
  unfold State.rests
  rw [withBrew_brews, List.map_map]
  exact List.map_congr_left fun b _ => same b

/-- The mash record of a brew is read from them. -/
theorem brew?_rested (s : State) (n : Nat) :
    (brew? s n).map Brew.rested
      = (s.rests.findIdx? fun b => b.any fun b => b.1 == n).bind fun r => s.rests.getD r none := by
  have row : (s.rests.findIdx? fun b => b.any fun b => b.1 == n) = brewRow? s n := by
    unfold State.rests brewRow?
    rw [List.findIdx?_map]
    congr 1
    funext b
    cases b <;> rfl
  rw [row]
  unfold brew?
  cases brewRow? s n with
  | none => rfl
  | some r =>
    show (s.brews.getD r none).map Brew.rested = s.rests.getD r none
    unfold State.rests
    simp only [List.getD_eq_getElem?_getD, List.getElem?_map]
    cases s.brews[r]? <;> rfl

/-- From `s` to `t` the sequencer of a vessel has gone on: frames may have left the slots that hold for it, it stands no
earlier in its list, and of the vessels it has moved at most its own and its transfer's destination, its own occupant
staying. -/
structure Moves (v : Vessel) (s t : State) : Prop where
  freed    : ∀ n h, slotHold t n = some h → slotHold s n = some h
  kept     : ∀ n h, slotHold s n = some h → h.vessel ≠ v → slotHold t n = some h
  rests    : t.rests = s.rests
  position : ∀ p, (s.seat v).position = some p → ∃ q, (t.seat v).position = some q ∧ p ≤ q
  vessels  : ∀ w, w ≠ v → destinationOf v ≠ some w → t.vessels.get w = s.vessels.get w
  occupant : (t.vessels.get v).occupant = (s.vessels.get v).occupant

theorem Moves.trans (h : Moves v s t) (g : Moves v t u) : Moves v s u := by
  refine ⟨fun n x hx => h.freed n x (g.freed n x hx), fun n x hx hv => g.kept n x (h.kept n x hx hv) hv,
    g.rests.trans h.rests, fun p hp => ?_, fun w hw hd => (g.vessels w hw hd).trans (h.vessels w hw hd),
    g.occupant.trans h.occupant⟩
  obtain ⟨q, hq, first⟩ := h.position p hp
  obtain ⟨q', hq', second⟩ := g.position q hq
  exact ⟨q', hq', first.trans second⟩

/-- Nothing but the slots of the vessel, its place and the rest of its sequencer have changed. -/
theorem Moves.of_slots (hf : ∀ n h, slotHold t n = some h → slotHold s n = some h)
    (hk : ∀ n h, slotHold s n = some h → h.vessel ≠ v → slotHold t n = some h) (hb : t.rests = s.rests)
    (hv : t.vessels = s.vessels) (hp : ∀ p, (s.seat v).position = some p → ∃ q, (t.seat v).position = some q ∧ p ≤ q) :
    Moves v s t := ⟨hf, hk, hb, hp, fun _ _ _ => by rw [hv], by rw [hv]⟩

theorem Moves.of_rests (hs : t.slots = s.slots) (hb : t.rests = s.rests) (hv : t.vessels = s.vessels)
    (hp : (t.seat v).position = (s.seat v).position) : Moves v s t :=
  .of_slots (fun n h e => by rw [slotHold_congr hs] at e; exact e)
    (fun n h e _ => by rw [slotHold_congr hs]; exact e) hb hv
    fun p e => ⟨p, hp.trans e, le_rfl⟩

theorem Moves.of_still (h : t.still = s.still) (hp : (t.seat v).position = (s.seat v).position) : Moves v s t :=
  .of_rests (slots_of_still h) (rests_of_brews (brews_of_still h)) (vessels_of_still h) hp

theorem Moves.of_seat (h : t.still = s.still) (hs : t.seat = s.seat) : Moves v s t := .of_still h (by rw [hs])

theorem Moves.refl (v : Vessel) (s : State) : Moves v s s := .of_seat rfl rfl

/-- A change of the sequencer that keeps its place. -/
theorem Moves.withSeq (v : Vessel) (s : State) {f : Sequencer → Sequencer} (hf : ∀ q, (f q).position = q.position) :
    Moves v s (withSeq v f s) := by
  refine .of_still rfl ?_
  rw [withSeq_seat_same]
  exact hf _

/-- A change of the vessel that keeps its occupant, authority and supervisor lock. -/
theorem Moves.withVessel (v : Vessel) (s : State) {f : VesselRec → VesselRec} (hf : ∀ r, (f r).occupant = r.occupant)
    (hr : ∀ r, (f r).ruled = r.ruled := by intros; rfl) : Moves v s (withVessel v f s) := by
  refine ⟨fun _ _ => id, fun _ _ e _ => e, rfl, fun p e => ⟨p, ?_, le_rfl⟩, fun w hw _ => ?_, ?_⟩
  · rw [withVessel_seat hr]
    exact e
  · rw [withVessel_vessels, PerVessel.get_set_other _ _ hw]
  · rw [withVessel_vessels, PerVessel.get_set_same, hf]

/-- A change of the destination. -/
theorem Moves.withDestination (s : State) {f : VesselRec → VesselRec} (hd : destinationOf v = some w)
    (hr : ∀ r, (f r).ruled = r.ruled := by intros; rfl) : Moves v s (Machine.withVessel w f s) := by
  have other : v ≠ w := by
    intro e
    rw [e] at hd
    cases w <;> cases hd
  refine ⟨fun _ _ => id, fun _ _ e _ => e, rfl, fun p e => ⟨p, ?_, le_rfl⟩, fun x _ hx => ?_, ?_⟩
  · rw [withVessel_seat hr]
    exact e
  · rw [withVessel_vessels, PerVessel.get_set_other]
    intro e
    rw [e] at hx
    exact hx hd
  · rw [withVessel_vessels, PerVessel.get_set_other _ _ other]

theorem Moves.withBrew (v : Vessel) (s : State) {n : Nat} {f : Brew → Brew} (hf : ∀ b, (f b).rested = b.rested) :
    Moves v s (withBrew n f s) := .of_rests rfl (withBrew_rests hf) rfl rfl

/-- Slots that hold for the vessel are emptied. -/
theorem Moves.emptySlots (s : State) {p : Hold → Bool} (hp : ∀ h, p h = true → h.vessel = v) :
    Moves v s (emptySlots p s) := by
  have calm := emptySlots_calm p s
  refine .of_slots (fun n h e => ?_) (fun n h e hv => ?_) (rests_of_brews (brews_of_calm calm)) (vessels_of_calm calm)
    fun q e => ⟨q, by rw [emptySlots_seat]; exact e, le_rfl⟩
  · by_cases inside : n < 4
    · rw [slotHold_emptySlots p s inside] at e
      exact Option.eq_some_of_filter_eq_some e
    · rw [slotHold_emptySlots_beyond p s (Nat.not_lt.1 inside)] at e
      exact e
  · by_cases inside : n < 4
    · rw [slotHold_emptySlots p s inside, e]
      refine if_pos ?_
      rw [Bool.not_eq_true', ← Bool.not_eq_true]
      exact fun x => hv (hp h x)
    · rw [slotHold_emptySlots_beyond p s (Nat.not_lt.1 inside)]
      exact e

theorem slotsAtStepEnd_moves (v : Vessel) (n : Nat) (s : State) : Moves v s (slotsAtStepEnd v n s) :=
  .emptySlots s fun h e => by simp at e; exact e.1

theorem slotsAtStepBegin_moves (v : Vessel) (s : State) : Moves v s (slotsAtStepBegin v s) :=
  .emptySlots s fun h e => by simp at e; exact e.1

theorem raiseVessel_moves (v : Vessel) (k : EventKind) (w : Vessel) (a : EventArg) (s : State) :
    Moves v s (raiseVessel k w a s) := .of_seat (raiseVessel_still ..) (raiseVessel_seat ..)

/-! ### Steps that begin, take effect and end (R78, R79) -/

/-- A step that begins no earlier in the list. -/
theorem beginStep_moves {n : Nat} (h : ∀ p, (s.seat v).position = some p → p ≤ n) : Moves v s (beginStep v n s) := by
  have begun : Moves v s (withSeq v (fun q => ({ q with causes := causesNow s v }).begin n) s) := by
    refine .of_slots (fun _ _ => id) (fun _ _ e _ => e) rfl rfl fun p e => ⟨n, ?_, h p e⟩
    rw [withSeq_seat_same]
    rfl
  have emptied := (begun.trans (raiseVessel_moves v .stepBegun v (.num n) _)).trans (slotsAtStepBegin_moves v _)
  have forced : ∀ t, Moves v s t → ∀ b : Bool, Moves v s (if b then forceZero v t else t) := by
    intro t ht b
    split
    · exact ht.trans (.of_seat (forceZero_still ..) (forceZero_seat ..))
    · exact ht
  have afresh : ∀ t, Moves v s t → Moves v s (if currentKind t v = some .boil then boilAfresh t else t) := by
    intro t ht
    split
    · exact ht.trans (.of_rests rfl rfl rfl rfl)
    · exact ht
  exact afresh _ (forced _ emptied _)

theorem beginStep_position (v : Vessel) (n : Nat) (s : State) : ((beginStep v n s).seat v).position = some n := by
  rw [beginStep_seat, withSeq_seat_same]
  rfl

/-- With no cause a step that begins runs; with one it is SUSPENDED (R78). -/
theorem beginStep_state (v : Vessel) (n : Nat) (s : State) :
    ((beginStep v n s).seat v).state = if (causesNow s v).any then .suspended else .running := by
  rw [beginStep_seat, withSeq_seat_same]
  rfl

theorem endStep_moves (v : Vessel) (s : State) : Moves v s (endStep v s) := by
  have unlocked := Moves.withVessel v s (f := fun r => { r with stepLock := false }) fun _ => rfl
  unfold endStep
  simp only
  split
  · exact unlocked.trans (slotsAtStepEnd_moves ..)
  · exact unlocked

theorem finishStep_moves (v : Vessel) (s : State) : Moves v s (finishStep v s) := by
  have done := (endStep_moves v s).trans (raiseVessel_moves v .stepDone v (doneArg ((endStep v s).seqs.get v)) _)
  unfold finishStep
  simp only
  split
  · refine done.trans (.withBrew .mash _ fun b => ?_)
    unfold Brew.rested
    rw [Option.map_map]
    rfl
  · exact done

theorem transferInEffect_moves (v : Vessel) (st : StepRow) (s : State) : Moves v s (transferInEffect v st s) := by
  have entered := Moves.withSeq v s (f := fun q => { q with state := .running, phase := .inEffect, blocked := none })
    fun _ => rfl
  have locked := entered.trans (.withVessel v _ (f := fun r => { r with stepLock := true }) fun _ => rfl)
  exact locked.trans (.of_seat (transferOn_still ..) (transferOn_seat ..))

theorem openTransfer_moves {st : StepRow} (hd : destinationOf v = some w) : Moves v s (openTransfer v w st s) := by
  have draining := Moves.withVessel v s (f := fun r => { r with occupancy := .draining }) fun _ => rfl
  have filling := draining.trans (.withDestination _ hd (f := fun r =>
    { r with occupancy := .filling, occupant := occupantOf s v }))
  unfold openTransfer
  simp only
  split
  · rename_i n _
    have moved := filling.trans (.withBrew v _ (n := n) (f := fun b => { b with occupied := [v, w] }) fun _ => rfl)
    exact moved.trans (transferInEffect_moves ..)
  · exact filling.trans (transferInEffect_moves ..)

theorem inEffect_moves (v : Vessel) (st : StepRow) (s : State) {f : Sequencer → Sequencer}
    (hf : ∀ q, (f q).position = q.position := by intros; rfl) : Moves v s (inEffect v st f s) := by
  have entered := Moves.withSeq v s (f := fun q => f { q with state := .running, phase := .inEffect, blocked := none })
    fun _ => hf _
  unfold inEffect
  simp only
  split
  · exact entered.trans (.withVessel v _ (f := fun r => { r with stepLock := true }) fun _ => rfl)
  · exact entered

theorem offerRecord_brews {d : Draft} (h : offerRecord d s = some t) : t.brews = s.brews := by
  unfold offerRecord at h
  split at h
  · cases h; rfl
  · cases h

theorem openCast_rests (b : Brew) (s : State) : (openCast b s).rests = s.rests := by
  unfold openCast
  simp only
  split
  · rfl
  · rename_i t h
    have noted : ∀ u : State, u.brews = s.brews → ∀ n : Nat,
        (Machine.withBrew b.number (fun b => { b with castNo := some n }) u).rests = s.rests :=
      fun u hu n => (withBrew_rests (s := u) (f := fun b => { b with castNo := some n }) fun _ => rfl).trans
        (rests_of_brews hu)
    unfold changeBrewState
    rw [rests_of_brews (brews_of_still (raise_still ..))]
    refine Eq.trans (withBrew_rests (f := fun b => { b with state := .casting }) fun _ => rfl) ?_
    exact noted _ (offerRecord_brews h) _

theorem castAttempt_moves (v : Vessel) (s : State) : Moves v s (castAttempt s).2 := by
  have rests : (castAttempt s).2.rests = s.rests := by
    unfold castAttempt
    split
    · rfl
    · split
      · rfl
      · split
        · exact openCast_rests ..
        · rfl
  have works := castAttempt_works s
  exact .of_rests (show (castAttempt s).2.works.slots = s.works.slots by rw [works]) rests (vessels_of_works works)
    (by rw [seat_of_works works])

theorem blockStep_moves (v : Vessel) (r : BlockReason) (s : State) : Moves v s (blockStep v r s) :=
  .withSeq v s (f := fun q => { q with state := .blocked, blocked := some r }) fun _ => rfl

theorem takeEffect_moves (v : Vessel) (s : State) : Moves v s (takeEffect v s).2 := by
  unfold takeEffect
  split
  · exact .refl v s
  · rename_i st _
    cases st.kind with
    | hold =>
      simp only
      split
      · dsimp only
        exact inEffect_moves v st s
      · dsimp only
        exact inEffect_moves v st s
    | ramp | wait | boil => exact inEffect_moves v st s
    | drive => exact (inEffect_moves v st s).trans (.of_seat (offerStepFrame_still ..) (offerStepFrame_seat ..))
    | transfer =>
      simp only
      split
      · exact .refl v s
      · rename_i w hd
        split
        · exact transferInEffect_moves ..
        · split
          · exact openTransfer_moves hd
          · exact blockStep_moves ..
    | cast =>
      have attempted := castAttempt_moves v s
      simp only
      split <;> (rename_i h; rw [h] at attempted; simp only at attempted ⊢)
      · exact attempted.trans (blockStep_moves ..)
      · exact attempted.trans (.withSeq v _ (f := fun q => { q with state := .running, blocked := none }) fun _ => rfl)

theorem advance_moves (n : Nat) (v : Vessel) (s : State) : Moves v s (advance n v s) := by
  induction n generalizing s with
  | zero => exact .refl v s
  | succ n ih =>
    have effect := takeEffect_moves v s
    unfold advance
    split <;> (rename_i h; rw [h] at effect; simp only at effect)
    · exact effect
    · rename_i t
      have done := effect.trans (finishStep_moves v t)
      simp only
      split
      · rename_i pos recipe hp _
        have on := done.trans (beginStep_moves (v := v) (n := pos + 1) fun p e => by
          cases (show some pos = some p from hp.symm.trans e)
          exact Nat.le_succ pos)
        split
        · split
          · exact on.trans (ih _)
          · exact on
        · exact done
      · exact done

/-- With a cause holding the step that begins waits (R78). -/
theorem startAt_held {n : Nat} (any : (causesNow s v).any = true) : startAt v n s = beginStep v n s := by
  have state := beginStep_state v n s
  rw [any, if_pos rfl] at state
  unfold startAt
  exact if_neg (by rw [show ((beginStep v n s).seqs.get v).state = .suspended from state]; nofun)

/-- With none the sequencer is under way at that step or one beyond it (R78, R79). -/
theorem startAt_goes {n : Nat} (none : (causesNow s v).any = false) :
    ((startAt v n s).seat v).Going ∧ ∃ p, ((startAt v n s).seat v).position = some p ∧ n ≤ p := by
  have state := beginStep_state v n s
  rw [none, if_neg (by decide)] at state
  have begun := beginStep_runs v n s
  have same : causesNow (beginStep v n s) v = causesNow s v := causesNow_congr begun.outer begun.rule
  have run : startAt v n s = advance 256 v (beginStep v n s) := by
    unfold startAt
    exact if_pos state
  rw [run]
  exact ⟨(advance_runs ..).going (by rw [same]; exact none) (.inl state),
    (advance_moves ..).position n (beginStep_position v n s)⟩

theorem startAt_moves {n : Nat} (h : ∀ p, (s.seat v).position = some p → p ≤ n) : Moves v s (startAt v n s) := by
  have begun := beginStep_moves h
  unfold startAt
  simp only
  split
  · exact begun.trans (advance_moves ..)
  · exact begun

/-- A step that begins has its place anew, whatever the place before. -/
theorem beginStep_anew (v : Vessel) (n : Nat) (s : State) :
    beginStep v n (withSeq v (fun q => { q with position := none }) s) = beginStep v n s := by
  have noted : withSeq v (fun q => ({ q with causes := causesNow s v }).begin n)
      (withSeq v (fun q => { q with position := none }) s)
      = withSeq v (fun q => ({ q with causes := causesNow s v }).begin n) s := by
    cases v <;> rfl
  have state : ((withSeq v (fun q => { q with position := none }) s).seqs.get v).state = (s.seqs.get v).state := by
    rw [withSeq_seqs, PerVessel.get_set_same]
  unfold beginStep
  simp only [state]
  rw [show causesNow (withSeq v (fun q => { q with position := none }) s) v = causesNow s v from rfl, noted]

/-- A list that begins at any position moves what a sequencer moves. -/
theorem startAt_anew (v : Vessel) (n : Nat) (s : State) :
    Moves v (withSeq v (fun q => { q with position := none }) s) (startAt v n s) := by
  have moves := startAt_moves (s := withSeq v (fun q => { q with position := none }) s) (v := v) (n := n) fun p e => by
    rw [withSeq_seat_same] at e
    cases e
  unfold startAt at moves ⊢
  rw [beginStep_anew] at moves
  exact moves

end Sys2Proof.Machine
end

section
/-! What a step's completion and a transfer's handover come to (R49, R66, R78, R79). -/

namespace Sys2Proof.Machine

variable {s t u : State} {v w : Vessel} {n pos recipe : Nat}

/-! ### Authorities and locks -/

/-- Authorities and supervisor locks stand in the seats. -/
theorem ruled_of_seats (ho : t.outer = s.outer) (hr : ∀ v, (t.seat v).rule = (s.seat v).rule) : t.ruled = s.ruled := by
  have parts : ∀ u : State, u.ruled = { u.outer with
      vessels := { mash := (u.seat .mash).rule, lauter := (u.seat .lauter).rule, kettle := (u.seat .kettle).rule
                   whirlpool := (u.seat .whirlpool).rule } } := fun _ => rfl
  rw [parts t, parts s, ho, hr, hr, hr, hr]

theorem ruled_of_works (h : t.works = s.works) : t.ruled = s.ruled :=
  ruled_of_seats (outer_of_works h) fun _ => by rw [seat_of_works h]

theorem Runs.ruled (h : Runs v s t) : t.ruled = s.ruled := by
  refine ruled_of_seats h.outer fun w => ?_
  by_cases e : w = v
  · rw [e, h.rule]
  · rw [h.others w e]

theorem slots_of_works (h : t.works = s.works) : t.slots = s.slots := by
  show t.works.slots = s.works.slots
  rw [h]

theorem suspending_congr (ho : t.outer = s.outer) (hr : (t.seat v).rule = (s.seat v).rule) :
    Suspending t v ↔ Suspending s v := by
  rw [← causesNow_any_iff, ← causesNow_any_iff, causesNow_congr ho hr]

theorem causesNow_any_eq_false (h : ¬Suspending s v) : (causesNow s v).any = false := by
  rw [← Bool.not_eq_true, causesNow_any_iff]
  exact h

/-! ### A step's completion (R49, R79) -/

/-- At a step's end the slots that hold for it are emptied, and no other (R49). -/
theorem slotHold_finishStep (hp : (s.seat v).position = some pos) (hn : n < 4) :
    slotHold (finishStep v s) n = (slotHold s n).filter fun h => !(h.vessel == v && h.step == some pos) := by
  have ended : (finishStep v s).slots = (endStep v s).slots := by
    have raised := slots_of_still (raiseVessel_still .stepDone v (doneArg ((endStep v s).seqs.get v)) (endStep v s))
    unfold finishStep
    simp only
    split
    · exact raised
    · exact raised
  have emptied : endStep v s = slotsAtStepEnd v pos (withVessel v (fun r => { r with stepLock := false }) s) := by
    unfold endStep
    simp only
    rw [show ((withVessel v (fun r => { r with stepLock := false }) s).seqs.get v).position = some pos from hp]
  rw [slotHold_congr ended, emptied]
  exact slotHold_emptySlots _ _ hn

theorem filter_ended {o : Option Hold} {h : Hold}
    (e : (o.filter fun h => !(h.vessel == v && h.step == some pos)) = some h) :
    o = some h ∧ ¬(h.vessel = v ∧ h.step = some pos) := by
  rw [Option.filter_eq_some_iff] at e
  obtain ⟨held, stays⟩ := e
  refine ⟨held, fun x => ?_⟩
  simp [x.1, x.2] at stays

/-- What a completion says of its end state turns on no more than the works laws keep. -/
theorem StepsOn.of_works (h : StepsOn v recipe pos s t) (hw : u.works = t.works) : StepsOn v recipe pos s u := by
  have seat : ∀ w, (u.seqs.get w).state = (t.seqs.get w).state ∧ (u.seqs.get w).position = (t.seqs.get w).position :=
    fun w => ⟨congrArg (fun x : Vessel → Seat => (x w).state) (seat_of_works hw),
      congrArg (fun x : Vessel → Seat => (x w).position) (seat_of_works hw)⟩
  obtain ⟨held, going, last, others, freed, slots, ruled⟩ := h
  simp only [← slotHold_congr (slots_of_works hw)] at freed slots
  simp only [← (seat _).1, ← (seat _).2] at held going last others
  exact ⟨held, going, last, others, freed, slots, (ruled_of_works hw).trans ruled⟩

/-- `t` stands as `s` does: outside the brewing blocks, in the slots, and in each sequencer's state and place. -/
structure StandsAs (s t : State) : Prop where
  outer    : t.outer = s.outer
  slots    : t.slots = s.slots
  state    : ∀ w, (t.seat w).state = (s.seat w).state
  position : ∀ w, (t.seat w).position = (s.seat w).position
  rule     : ∀ w, (t.seat w).rule = (s.seat w).rule

theorem StepsOn.of_standsAs (h : StepsOn v recipe pos t u) (a : StandsAs s t) : StepsOn v recipe pos s u := by
  have state : ∀ w, (t.seqs.get w).state = (s.seqs.get w).state := a.state
  have position : ∀ w, (t.seqs.get w).position = (s.seqs.get w).position := a.position
  obtain ⟨held, going, last, others, freed, slots, ruled⟩ := h
  simp only [tables_of_outer a.outer, suspending_congr a.outer (a.rule v), state, position,
    slotHold_congr a.slots] at held going last others freed slots
  exact ⟨held, going, last, others, freed, slots, ruled.trans (ruled_of_seats a.outer a.rule)⟩

theorem completeStep_moves (v : Vessel) (s : State) : Moves v (finishStep v s) (completeStep v s) := by
  unfold completeStep
  simp only
  split
  · rename_i pos recipe position _
    split
    · exact startAt_moves fun p hp => by
        cases (show some pos = some p from position.symm.trans hp)
        exact Nat.le_succ pos
    · exact .refl v _
  · exact .refl v _

/-- The current step completes, and the next position begins if there is one (R79). -/
theorem completeStep_stepsOn (hp : (s.seat v).position = some pos) (hl : (s.seat v).list = some recipe) :
    StepsOn v recipe pos s (completeStep v s) := by
  have seat := finishStep_seat v s
  have done : Runs v s (finishStep v s) := .of_seat (finishStep_outer ..) seat
  have position : ((finishStep v s).seqs.get v).position = some pos := by
    show ((finishStep v s).seat v).position = some pos
    rw [seat, hp]
  have list : ((finishStep v s).seqs.get v).list = some recipe := by
    show ((finishStep v s).seat v).list = some recipe
    rw [seat, hl]
  have tables : (finishStep v s).tables = s.tables := tables_of_outer (finishStep_outer v s)
  have now : causesNow (finishStep v s) v = causesNow s v := causesNow_congr done.outer done.rule
  have runs := completeStep_runs v s
  have others : ∀ w, w ≠ v → ((completeStep v s).seqs.get w).state = (s.seqs.get w).state
      ∧ ((completeStep v s).seqs.get w).position = (s.seqs.get w).position := fun w hw =>
    ⟨congrArg Seat.state (runs.others w hw), congrArg Seat.position (runs.others w hw)⟩
  have on := completeStep_moves v s
  have next : pos + 1 < listCount s.tables recipe v → completeStep v s = startAt v (pos + 1) (finishStep v s) := by
    intro more
    unfold completeStep
    simp only [position, list]
    rw [tables, if_pos more]
  refine ⟨fun more cause => ?_, fun more free => ?_, fun least => ?_, others, fun n hn h e => ?_, fun n hn h e hv => ?_,
    runs.ruled⟩
  · have any : (causesNow (finishStep v s) v).any = true := by rw [now, causesNow_any_iff]; exact cause
    have state := beginStep_state v (pos + 1) (finishStep v s)
    rw [any, if_pos rfl] at state
    rw [next more, startAt_held any]
    exact ⟨state, beginStep_position ..⟩
  · have none : (causesNow (finishStep v s) v).any = false := by rw [now]; exact causesNow_any_eq_false free
    obtain ⟨going, p, hp', beyond⟩ := startAt_goes (n := pos + 1) none
    rw [next more]
    exact ⟨going, p, hp', beyond⟩
  · have stays : completeStep v s = finishStep v s := by
      unfold completeStep
      simp only [position, list]
      rw [tables, if_neg (by omega)]
    rw [stays]
    exact ⟨congrArg (fun x : Vessel → Seat => (x v).state) seat, position⟩
  · have held := on.freed n h e
    rw [slotHold_finishStep hp hn] at held
    exact filter_ended held
  · exact on.kept n h ((finishStep_moves v s).kept n h e hv) hv

/-! ### The handover (R66) -/

theorem destinationOf_ne (h : destinationOf v = some w) : w ≠ v := by
  rintro rfl
  cases w <;> cases h

theorem destinationOf_not_back (h : destinationOf v = some w) : destinationOf w ≠ some v := by
  intro back
  cases v with
  | mash | lauter | kettle => cases h; cases back
  | whirlpool => cases h

/-- A transfer is delivered but for the start of the destination's list (R66). -/
def handover (v w : Vessel) (n : Nat) (st : StepRow) (s : State) : State :=
  advanceBrew n w (settleIn n w (becomeIdle v (emptyVessel v (finishStep v (transferOff v st s)))))

theorem completeTransfer_eq {st : StepRow} (hn : (s.vessels.get v).occupant = some n) (hd : destinationOf v = some w) :
    completeTransfer v st s = if ((handover v w n st s).seqs.get w).state = .idle then startAt w 0 (handover v w n st s)
      else handover v w n st s := by
  have occupant : occupantOf (finishStep v (transferOff v st s)) v = some n := by
    have kept := (finishStep_moves v (transferOff v st s)).occupant
    rw [vessels_of_still (transferOff_still ..)] at kept
    exact kept.trans hn
  unfold completeTransfer
  simp only [occupant, hd]
  rfl

theorem handover_outer (v w : Vessel) (n : Nat) (st : StepRow) (s : State) : (handover v w n st s).outer = s.outer := by
  simp [handover]

theorem becomeIdle_seat_other (s : State) (h : w ≠ v) : (becomeIdle v s).seat w = s.seat w := by
  unfold becomeIdle
  rw [forceZero_seat, withVessel_seat, withSeq_seat_other _ h]

theorem becomeIdle_seat_same (v : Vessel) (s : State) :
    (becomeIdle v s).seat v = { s.seat v with state := .idle, list := none, position := none } := by
  unfold becomeIdle
  rw [forceZero_seat, withVessel_seat, withSeq_seat_same]
  rfl

theorem becomeIdle_vessels (v : Vessel) (s : State) :
    (becomeIdle v s).vessels = s.vessels.set v { s.vessels.get v with stepLock := false } :=
  vessels_of_still (forceZero_still ..)

theorem advanceBrew_works (n : Nat) (w : Vessel) (s : State) : (advanceBrew n w s).works = s.works := by
  unfold advanceBrew
  split
  · exact changeBrewState_works ..
  · rfl

theorem settleIn_seat (n : Nat) (w x : Vessel) (s : State) :
    ((settleIn n w s).seat x).state = (s.seat x).state ∧ ((settleIn n w s).seat x).rule = (s.seat x).rule := by
  cases w <;> cases x <;> exact ⟨rfl, rfl⟩

theorem settleIn_vessels (n : Nat) (w : Vessel) (s : State) : (settleIn n w s).vessels
    = s.vessels.set w { s.vessels.get w with occupant := some n, occupancy := .resident } := rfl

/-- The handover leaves every other sequencer's state and every authority, and the source IDLE. -/
theorem handover_seat (v w : Vessel) (n : Nat) (st : StepRow) (s : State) :
    ((handover v w n st s).seat v).state = .idle
      ∧ (∀ x, x ≠ v → ((handover v w n st s).seat x).state = (s.seat x).state)
      ∧ ∀ x, ((handover v w n st s).seat x).rule = (s.seat x).rule := by
  have emptied : (emptyVessel v (finishStep v (transferOff v st s))).seat = s.seat := by
    unfold emptyVessel
    rw [withVessel_seat, finishStep_seat, transferOff_seat]
  have settled : ∀ x, ((handover v w n st s).seat x).state
        = ((becomeIdle v (emptyVessel v (finishStep v (transferOff v st s)))).seat x).state
      ∧ ((handover v w n st s).seat x).rule
        = ((becomeIdle v (emptyVessel v (finishStep v (transferOff v st s)))).seat x).rule := by
    intro x
    unfold handover
    rw [seat_of_works (advanceBrew_works ..)]
    exact settleIn_seat n w x _
  refine ⟨?_, fun x hx => ?_, fun x => ?_⟩
  · rw [(settled v).1, becomeIdle_seat_same]
  · rw [(settled x).1, becomeIdle_seat_other _ hx, emptied]
  · rw [(settled x).2]
    by_cases e : x = v
    · rw [e, becomeIdle_seat_same, emptied]
    · rw [becomeIdle_seat_other _ e, emptied]

/-- The source is EMPTY and the destination RESIDENT with the brew (R66). -/
theorem handover_vessels (n : Nat) (st : StepRow) (s : State) (h : w ≠ v) :
    (((handover v w n st s).vessels.get v).occupancy = .empty ∧ ((handover v w n st s).vessels.get v).occupant = none)
      ∧ ((handover v w n st s).vessels.get w).occupancy = .resident
      ∧ ((handover v w n st s).vessels.get w).occupant = some n := by
  unfold handover
  rw [vessels_of_works (advanceBrew_works ..), settleIn_vessels, PerVessel.get_set_same,
    PerVessel.get_set_other _ _ h.symm,
    becomeIdle_vessels, PerVessel.get_set_same]
  unfold emptyVessel
  rw [withVessel_vessels, PerVessel.get_set_same]
  exact ⟨⟨rfl, rfl⟩, rfl, rfl⟩

theorem HandedOver.of_works (h : HandedOver v w n s t) (hw : u.works = t.works) : HandedOver v w n s u := by
  have state : ∀ x, (u.seqs.get x).state = (t.seqs.get x).state :=
    fun x => congrArg (fun y : Vessel → Seat => (y x).state) (seat_of_works hw)
  have position : ∀ x, (u.seqs.get x).position = (t.seqs.get x).position :=
    fun x => congrArg (fun y : Vessel → Seat => (y x).position) (seat_of_works hw)
  obtain ⟨ruled, source, occupant, halted, held, going⟩ := h
  rw [← vessels_of_works hw] at source occupant halted
  rw [← state] at source halted held going
  rw [← position] at held
  exact ⟨(ruled_of_works hw).trans ruled, source, occupant, halted, held, going⟩

/-- A TRANSFER that completes hands its brew over, and the list of an IDLE destination begins (R66). -/
theorem completeTransfer_handsOver {st : StepRow} (hn : (s.vessels.get v).occupant = some n)
    (hd : destinationOf v = some w) (hw : (s.seqs.get w).state = .idle ∨ (s.seqs.get w).state = .halted) :
    HandedOver v w n s (completeTransfer v st s) := by
  have apart := destinationOf_ne hd
  obtain ⟨idle, states, rules⟩ := handover_seat v w n st s
  obtain ⟨source, resident, occupant⟩ := handover_vessels n st s apart
  have outer := handover_outer v w n st s
  have ruled : (handover v w n st s).ruled = s.ruled := ruled_of_seats outer rules
  have now : causesNow (handover v w n st s) w = causesNow s w := causesNow_congr outer (rules w)
  have run := completeTransfer_eq (st := st) hn hd
  have there : ((handover v w n st s).seqs.get w).state = (s.seqs.get w).state := states w apart
  rw [there] at run
  obtain waits | halted := hw
  · rw [if_pos waits] at run
    have starts := startAt_runs w 0 (handover v w n st s)
    have moves := startAt_anew w 0 (handover v w n st s)
    have left := moves.vessels v apart.symm (destinationOf_not_back hd)
    rw [run]
    refine ⟨starts.ruled.trans ruled, ⟨?_, ?_, ?_⟩, moves.occupant.trans occupant, fun x => ?_, fun _ cause => ?_,
      fun _ free => ?_⟩
    · rw [left]
      exact source.1
    · rw [left]
      exact source.2
    · exact (congrArg Seat.state (starts.others v apart.symm)).trans idle
    · rw [waits] at x
      cases x
    · have any : (causesNow (handover v w n st s) w).any = true := by rw [now, causesNow_any_iff]; exact cause
      have state := beginStep_state w 0 (handover v w n st s)
      rw [any, if_pos rfl] at state
      rw [startAt_held any]
      exact ⟨state, beginStep_position ..⟩
    · exact (startAt_goes (by rw [now]; exact causesNow_any_eq_false free)).1
  · rw [if_neg (by rw [halted]; nofun)] at run
    rw [run]
    refine ⟨ruled, ⟨source.1, source.2, idle⟩, occupant, fun _ => ⟨there.trans halted, resident⟩, ?_, ?_⟩
    all_goals exact fun x => by rw [halted] at x; cases x

end Sys2Proof.Machine
end

section
/-! Samples and their points (R22 to R27), and what a level sample ends (R30, R66, R91, R122). -/

namespace Sys2Proof.Machine

variable {s t : State} {v : Vessel} {r : Nat}

/-! ### The end of a cast by LEVEL (R121 to R123) -/

theorem Cast.endBy_fields (cause : EndCause) (c : Cast) :
    (c.endBy cause).number = c.number ∧ (c.endBy cause).v20 = c.v20
      ∧ (c.endBy cause).endCause = some (c.endCause.getD cause) := by
  unfold Cast.endBy
  split
  · rename_i h
    exact ⟨rfl, rfl, by rw [h]; rfl⟩
  · rename_i h
    exact ⟨rfl, rfl, by rw [h]; rfl⟩

theorem Cast.endBy_level {c : Cast} (h : c.endCause = none) : (c.endBy .level).flags.levelEnd = true := by
  unfold Cast.endBy
  rw [h]
  exact Bool.or_true _

/-- The record as its settling starts (R123). -/
def Cast.settled (now : LoopTime) (c : Cast) : Cast :=
  { c with state := .settling, settleTimer := some now, settleOver := false }

theorem enterSettling_steady {c : Cast} (hc : s.castMeter.record = some c) :
    (enterSettling s).steadyCast = some (c.settled s.loopTime).steady := by
  unfold enterSettling
  rw [reviewPauses_steady]
  exact steadyCast_of_some (withCast_record hc _)

/-- A METERING or PAUSED cast that is ended enters SETTLING (R121). -/
theorem endTrigger_steady {c : Cast} (cause : EndCause) (hc : s.castMeter.record = some c)
    (state : c.state = .metering ∨ c.state = .paused) :
    (endTrigger cause s).steadyCast = some ((c.endBy cause).settled s.loopTime).steady := by
  have settling : (enterSettling (withCast (Cast.endBy cause) s)).steadyCast
      = some ((c.endBy cause).settled s.loopTime).steady := enterSettling_steady (withCast_record hc _)
  unfold endTrigger
  simp only [hc]
  obtain e | e := state <;> rw [e]
  · exact (drivePump_steady ..).trans settling
  · exact settling

theorem Cast.state_of_steady {c : Cast} (h : c.steady.state = .settling) : c.state = .settling := by
  cases e : c.state <;> simp [Cast.steady, e] at h ⊢

theorem castLevel_above {x : Int} (h : ((vesselRow s.tables .whirlpool).emptyLevel : Int) < x) : castLevel x s = s := by
  have above : decide (x ≤ ((vesselRow s.tables .whirlpool).emptyLevel : Int)) = false := decide_eq_false (by omega)
  unfold castLevel
  simp only [above, Bool.and_false, Bool.false_eq_true, if_false]

/-- With no METERING or PAUSED cast a level ends none (R122). -/
theorem castLevel_none (x : Int)
    (h : ∀ k, s.castMeter.record = some k → ¬(k.state = .metering ∨ k.state = .paused)) : castLevel x s = s := by
  have none : (s.castMeter.record.any fun c => c.state == .metering || c.state == .paused) = false := by
    rw [← Bool.not_eq_true]
    intro x
    obtain ⟨k, hk, state⟩ := (Option.any_eq_true _ _).1 x
    simp only [Bool.or_eq_true, beq_iff_eq] at state
    exact h k hk state
  unfold castLevel
  simp only [none, Bool.false_and, Bool.false_eq_true, if_false]

theorem castLevel_ends {k : Cast} {x : Int} (hk : s.castMeter.record = some k)
    (state : k.state = .metering ∨ k.state = .paused) (h : x ≤ ((vesselRow s.tables .whirlpool).emptyLevel : Int)) :
    castLevel x s = endTrigger .level s := by
  have some : (s.castMeter.record.any fun c => c.state == .metering || c.state == .paused) = true := by
    rw [hk, Option.any_some, Bool.or_eq_true, beq_iff_eq, beq_iff_eq]
    exact state
  unfold castLevel
  simp only [some, Bool.true_and]
  exact if_pos (decide_eq_true h)

/-! ### A level sample (R91) -/

/-- A TRANSFER of the vessel is in effect and its sequencer RUNNING. -/
def Transferring (s : State) (v : Vessel) (st : StepRow) : Prop :=
  currentStep s v = some st ∧ st.kind = .transfer ∧ (s.seqs.get v).phase = .inEffect ∧ (s.seqs.get v).state = .running

/-- The whirlpool's level is handed to the Cast Meter (R122). -/
def levelToCast (v : Vessel) (x : Int) (s : State) : State := if v = .whirlpool then castLevel x s else s

/-- A level above the empty level, or with no transfer under way, ends no step. -/
theorem levelSample_stays (h : ((vesselRow s.tables v).emptyLevel : Int) < valueOf s r ∨ ∀ st, ¬Transferring s v st) :
    levelSample v r s = levelToCast v (valueOf s r) s := by
  unfold levelSample levelToCast
  simp only
  cases hst : currentStep s v with
  | none => rfl
  | some st =>
    have stays : ¬(st.kind = .transfer ∧ (s.seqs.get v).phase = .inEffect ∧ (s.seqs.get v).state = .running
        ∧ valueOf s r ≤ ((vesselRow s.tables v).emptyLevel : Int)) := by
      rintro ⟨kind, phase, state, low⟩
      obtain above | none := h
      · omega
      · exact none st ⟨hst, kind, phase, state⟩
    simp only [if_neg stays]

/-- A level at the empty level or below completes the TRANSFER (R91). -/
theorem levelSample_completes {st : StepRow} (h : Transferring s v st)
    (low : valueOf s r ≤ ((vesselRow s.tables v).emptyLevel : Int)) :
    levelSample v r s = levelToCast v (valueOf s r) (completeTransfer v st s) := by
  obtain ⟨hst, kind, phase, state⟩ := h
  have ends : st.kind = .transfer ∧ (s.seqs.get v).phase = .inEffect ∧ (s.seqs.get v).state = .running
      ∧ valueOf s r ≤ ((vesselRow s.tables v).emptyLevel : Int) := ⟨kind, phase, state, low⟩
  unfold levelSample levelToCast
  simp only [hst, if_pos ends]

theorem castMeter_of_calm (h : t.calm = s.calm) : t.castMeter = s.castMeter := by
  show t.calm.castMeter = s.calm.castMeter
  rw [h]

theorem finishStep_castMeter (v : Vessel) (s : State) : (finishStep v s).castMeter = s.castMeter := by
  have ended : (endStep v s).castMeter = s.castMeter := by
    unfold endStep
    simp only
    split
    · exact (castMeter_of_calm (emptySlots_calm ..)).trans rfl
    · rfl
  have raised := castMeter_of_calm (calm_of_still (raiseVessel_still .stepDone v (doneArg ((endStep v s).seqs.get v))
    (endStep v s)))
  unfold finishStep
  simp only
  split
  · exact raised.trans ended
  · exact raised.trans ended

/-- The whirlpool has no transfer to deliver, so its step ends and the cast is left alone (R63). -/
theorem completeTransfer_whirlpool (st : StepRow) (s : State) :
    (completeTransfer .whirlpool st s).castMeter = s.castMeter := by
  have done : completeTransfer .whirlpool st s = finishStep .whirlpool (transferOff .whirlpool st s) := by
    unfold completeTransfer
    simp only [destinationOf]
    split
    · rename_i h
      cases h
    · rfl
  rw [done, finishStep_castMeter, transferOff_castMeter]

/-- At the empty level or below the whirlpool's sample ends the cast, whatever becomes of its step (R122). -/
theorem levelSample_endsCast {k : Cast} (hk : s.castMeter.record = some k)
    (state : k.state = .metering ∨ k.state = .paused)
    (low : valueOf s r ≤ ((vesselRow s.tables .whirlpool).emptyLevel : Int)) :
    (levelSample .whirlpool r s).steadyCast = some ((k.endBy .level).settled s.loopTime).steady := by
  have ends : ∀ u : State, u.outer = s.outer → u.castMeter = s.castMeter →
      (levelToCast .whirlpool (valueOf s r) u).steadyCast = some ((k.endBy .level).settled s.loopTime).steady := by
    intro u outer same
    have record : u.castMeter.record = some k := by rw [same]; exact hk
    show (castLevel (valueOf s r) u).steadyCast = _
    rw [castLevel_ends record state (by rw [tables_of_outer outer]; exact low), endTrigger_steady .level record state,
      loopTime_of_outer outer]
  by_cases h : ∃ st, Transferring s .whirlpool st
  · obtain ⟨st, h⟩ := h
    rw [levelSample_completes h low]
    exact ends _ (completeTransfer_outer ..) (completeTransfer_whirlpool st s)
  · rw [levelSample_stays (.inr fun st x => h ⟨st, x⟩)]
    exact ends s rfl rfl

/-! ### The statement -/

theorem leaves_settledTwice {i : Instr} {u : State} (h : exec i s = .next (settle (settle u))) (ht : u.tells = []) :
    Leaves i s u := ⟨_, h, (settle_rest (settle_tells u)).trans (settle_rest ht)⟩

/-- Settles O21: the items in order, one item alone, and a level sample. -/
theorem samplesUpdateTheirPoints : Obligations.SamplesUpdateTheirPoints := by
  refine ⟨fun f items s l g kind hs hh hd hi => ?_, fun f i s l g kind hs hh hd hi => ?_,
    fun f i r x clamped v s h deliver => ?_⟩
  · intro entries
    refine ⟨_, exec_sample l g kind hs hh hd hi, ?_⟩
    rw [settle_outer]
    exact takeItems_outer f.source items s.heard
  · have run := exec_sample l g kind hs hh hd hi
    have heard : s.heard.tells = [] := l.tells
    rw [List.foldl_cons, List.foldl_nil] at run
    refine ⟨fun hp => ?_, fun r hp => ⟨fun hv => ?_, fun x clamped hv => ⟨fun bad stale => ?_, fun bad fresh => ?_,
      fun accepted => ?_⟩⟩⟩
    · rw [takeItem_unknown (s := s.heard) hp] at run
      exact leaves_settled run heard
    · rw [takeItem_ignored (s := s.heard) hp hv] at run
      exact leaves_settled run heard
    · rw [takeItem_bad (s := s.heard) hp hv (by rw [bad]; decide), withEntry_bad_stale (s := s.heard) stale] at run
      exact leaves_settled run heard
    · rw [takeItem_bad (s := s.heard) hp hv (by rw [bad]; decide), withEntry_bad (s := s.heard) fresh] at run
      exact leaves_settled run heard
    · refine ⟨_, run, ?_⟩
      rw [settle_outer, takeItem_outer, itemEntries_accepted (s := s.heard) hp hv accepted]
      rfl
  · intro c a q empty transferring casting
    have run : exec c s = .next (settle (settle (levelSample v r a))) := by
      rw [h.exec, (deliver.sampled i x clamped).levelSample]
    have value : valueOf a r = x := valueOf_sampled x clamped deliver.entry
    have works : ∀ u, (settle (settle u)).works = u.works := fun u => (settle_works _).trans (settle_works u)
    refine ⟨fun none => ?_, fun low st n w moving hn hd hw => ?_, fun low k casts => ?_⟩
    · have stays : levelSample v r a = a := by
        rw [levelSample_stays (s := a) (r := r) (none.imp (fun above => by rw [value]; exact above) And.left),
          value, levelToCast]
        split
        · rename_i whirlpool
          obtain above | ⟨_, noCast⟩ := none
          · exact castLevel_above (by rw [← whirlpool]; exact above)
          · exact castLevel_none x fun k hk state => noCast k ⟨whirlpool, hk, state⟩
        · rfl
      rw [stays] at run
      exact leaves_settledTwice run h.tells
    · have apart : v ≠ .whirlpool := by
        rintro rfl
        cases hd
      have completes : levelSample v r a = completeTransfer v st a := by
        rw [levelSample_completes (s := a) (r := r) moving (by rw [value]; exact low), levelToCast, if_neg apart]
      rw [completes] at run
      exact ⟨_, run, (completeTransfer_handsOver (s := a) hn hd hw).of_works (works _)⟩
    · obtain ⟨rfl, hk, state⟩ := casts
      have ended := levelSample_endsCast (s := a) (r := r) hk state (by rw [value]; exact low)
      rw [← settle_steady, ← settle_steady] at ended
      obtain ⟨d, hd, same⟩ := record_of_steadyCast ended
      obtain ⟨number, v20, endCause⟩ := Cast.endBy_fields .level k
      refine ⟨_, d, run, hd, (Cast.read_of_steady same Cast.number).trans number, Cast.state_of_steady ?_,
        Cast.read_of_steady same Cast.settleTimer, (Cast.read_of_steady same Cast.v20).trans v20,
        (Cast.read_of_steady same Cast.endCause).trans endCause, fun first => ?_⟩
      · rw [same]
        rfl
      · exact (Cast.read_of_steady same fun c => c.flags.levelEnd).trans (Cast.endBy_level first)

end Sys2Proof.Machine
end

section
/-! The stale timer of a point (R28, R30, R76). -/

namespace Sys2Proof.Machine

variable {s t : State} {v w : Vessel} {r : Nat}

/-! ### The expiry delivered to one sequencer (R76, R94) -/

/-- The zero that a delivery forces moves no sequencer, so an expiry moves it as its causes do. -/
theorem pvExpiry_seat (v : Vessel) (s : State) :
    (pvExpiry v s).seat = (syncCauses v (withSeq v (fun q => { q with dtBase := false }) s)).seat := by
  unfold pvExpiry
  simp only
  split <;> simp only [forceZero_seat]

theorem pvExpiry_synced (v : Vessel) (s : State) : Synced v s (pvExpiry v s) :=
  (syncCauses_synced v (withSeq v (fun q => { q with dtBase := false }) s)).congr rfl
    (congrFun (withSeq_seat (s := s)) v) (by rw [pvExpiry_seat])

theorem expireVessel_outer (r : Nat) (s : State) (v : Vessel) : (expireVessel r s v).outer = s.outer := by
  unfold expireVessel
  split
  · exact pvExpiry_outer v s
  · rfl

theorem expireVessel_named (h : namesPv s.tables r v = true) : expireVessel r s v = pvExpiry v s := if_pos h

theorem expireVessel_seat_other (r : Nat) (s : State) (h : w ≠ v) : (expireVessel r s v).seat w = s.seat w := by
  unfold expireVessel
  split
  · rw [pvExpiry_seat, syncCauses_seat_other _ h, withSeq_seat_other _ h]
  · rfl

theorem expireVessel_rule (r : Nat) (s : State) (v w : Vessel) :
    ((expireVessel r s v).seat w).rule = (s.seat w).rule := by
  by_cases e : w = v
  · subst e
    unfold expireVessel
    split
    · exact (pvExpiry_synced w s).rule
    · rfl
  · rw [expireVessel_seat_other r s e]

/-! ### The expiry delivered to every sequencer (R30) -/

/-- The sequencers are told in vessel order. -/
def expireAll (r : Nat) (l : List Vessel) (s : State) : State := l.foldl (expireVessel r) s

theorem expireAll_outer (r : Nat) (l : List Vessel) (s : State) : (expireAll r l s).outer = s.outer :=
  foldl_outer _ (expireVessel_outer r) l s

theorem expireAll_rule (r : Nat) (l : List Vessel) (s : State) (w : Vessel) :
    ((expireAll r l s).seat w).rule = (s.seat w).rule := by
  induction l generalizing s with
  | nil => rfl
  | cons v l ih => exact (ih _).trans (expireVessel_rule r s v w)

theorem expireAll_other {l : List Vessel} (s : State) (h : w ∉ l) : (expireAll r l s).seat w = s.seat w := by
  induction l generalizing s with
  | nil => rfl
  | cons v l ih =>
    rw [List.mem_cons, not_or] at h
    exact (ih _ h.2).trans (expireVessel_seat_other r s h.1)

/-- Each vessel that names the point is told once, whatever the others do. -/
theorem expireAll_synced {l : List Vessel} (hn : l.Nodup) (h : v ∈ l) (named : namesPv s.tables r v = true) :
    Synced v s (expireAll r l s) := by
  induction l generalizing s with
  | nil => cases h
  | cons w l ih =>
    rw [List.nodup_cons] at hn
    have rest : expireAll r (w :: l) s = expireAll r l (expireVessel r s w) := rfl
    rw [rest]
    by_cases e : v = w
    · subst e
      have told := pvExpiry_synced v s
      rw [← expireVessel_named named] at told
      exact told.congr rfl rfl (expireAll_other _ hn.1)
    · have kept : namesPv (expireVessel r s w).tables r v = true := by
        rw [tables_of_outer (expireVessel_outer r s w)]
        exact named
      exact (ih hn.2 ((List.mem_cons.1 h).resolve_left e) kept).congr (expireVessel_outer r s w)
        (expireVessel_seat_other r s e) rfl

/-! ### The statement -/

/-- The stale timer runs out at the point's limit (R28). -/
theorem staleDue_iff {start : LoopTime} (valid : pointValid s.tables r = true)
    (timer : (entryOf s r).staleTimer = some start) :
    staleDue s r = true ↔ natCell s.tables.point r 6 ≤ (s.loopTime - start).toNat := by
  unfold staleDue timerDue
  rw [valid, timer]
  exact decide_eq_true_iff

/-- An expired point has no fresh value, so its vessels have the cause STALE (R76). -/
theorem causesNow_expired (h : r < s.points.length) (named : namesPv s.tables r v = true) :
    (causesNow (withEntry r PointEntry.expire s) v).stale = true := by
  unfold namesPv at named
  rw [Bool.and_eq_true, beq_iff_eq] at named
  obtain ⟨valid, pv⟩ := named
  have stale : freshPoint (withEntry r PointEntry.expire s) r = false := by
    unfold freshPoint PointEntry.fresh entryOf withEntry PointEntry.expire
    simp [h]
  show (vesselValid s.tables v && !freshPoint (withEntry r PointEntry.expire s) (vesselRow s.tables v).pv) = true
  rw [valid, pv, stale]
  rfl

/-- Settles O22: the expiry delivered to each vessel in turn, and the timer not yet run out. -/
theorem staleTimerExpires : Obligations.StaleTimerExpires := by
  intro r start s active valid timer passed
  have due := staleDue_iff valid timer
  refine ⟨fun reached => ?_, fun early => if_neg (by rw [due]; exact Nat.not_le.2 early)⟩
  have run : exec (.staleExpiry r) s = .next (settle (staleExpired r s)) :=
    (if_pos (due.2 reached)).trans (congrArg _ (if_pos active))
  let e := withEntry r PointEntry.expire s
  have told : (settle (staleExpired r s)).works = (expireAll r vessels e).works :=
    (settle_works _).trans (castExpiry_works r _)
  refine ⟨_, run, ?_, fun v inside vv pv => ?_⟩
  · refine (ruled_of_works told).trans (ruled_of_seats (t := expireAll r vessels e) (s := e) ?_ ?_)
    · exact expireAll_outer r vessels e
    · exact expireAll_rule r vessels e
  · have named : namesPv s.tables r v = true := by
      unfold namesPv
      rw [vv, pv, beq_self_eq_true]
      rfl
    have synced : Synced v e (settle (staleExpired r s)) :=
      (expireAll_synced (s := e) (l := vessels) (by decide) (by cases v <;> decide) named).congr rfl rfl
        (by rw [seat_of_works told])
    have stale := causesNow_expired inside named
    have any : (causesNow e v).any = true := by
      unfold Causes.any
      rw [stale]
      simp
    obtain ⟨position, state⟩ := synced.held any
    exact ⟨(congrArg Causes.stale synced.causes).trans stale, fun going => state.trans (if_pos going), position⟩

end Sys2Proof.Machine
end

section
/-! The halt of a sequencer (R82), for the notices that bring one. -/

namespace Sys2Proof.Machine

variable {s t : State} {v w : Vessel}

/-! ### What a halt leaves (R75, R82) -/

/-- The step's end with the off-drives of a TRANSFER: a halt of the step but for the boil. -/
def stepCut (v : Vessel) (s : State) : State :=
  match currentStep s v with
  | some st => if st.kind = .transfer then transferOff v st (endStep v s) else endStep v s
  | none => endStep v s

theorem haltStep_works (v : Vessel) (s : State) : (haltStep v s).works = (stepCut v s).works := by
  unfold haltStep
  simp only
  split
  · rw [haltSends_works]
    split
    · exact haltBoilStep_works ..
    · rfl
  · rfl

theorem haltStep_seat (v : Vessel) (s : State) : (haltStep v s).seat = s.seat := by
  rw [seat_of_works (haltStep_works v s), stepCut]
  split
  · split
    · rw [transferOff_seat, endStep_seat]
    · exact endStep_seat v s
  · exact endStep_seat v s

theorem endStep_vessels (v : Vessel) (s : State) :
    (endStep v s).vessels = s.vessels.set v { s.vessels.get v with stepLock := false } := by
  unfold endStep
  simp only
  split
  · exact vessels_of_calm (emptySlots_calm ..)
  · rfl

/-- A step ended by a halt leaves no step lock (R36, R82). -/
theorem haltStep_vessels (v : Vessel) (s : State) :
    (haltStep v s).vessels = s.vessels.set v { s.vessels.get v with stepLock := false } := by
  rw [vessels_of_works (haltStep_works v s), stepCut]
  split
  · split
    · rw [vessels_of_still (transferOff_still ..), endStep_vessels]
    · exact endStep_vessels v s
  · exact endStep_vessels v s

theorem becomeHalted_seat_other (s : State) (h : w ≠ v) : (becomeHalted v s).seat w = s.seat w := by
  unfold becomeHalted
  rw [forceZero_seat, withSeq_seat_other _ h]

theorem becomeHalted_seat_same (v : Vessel) (s : State) :
    (becomeHalted v s).seat v = { s.seat v with state := .halted, position := none } := by
  obtain ⟨_, list, causes⟩ := Sequencer.stopHold_fields s.loopTime (s.seqs.get v)
  unfold becomeHalted
  rw [forceZero_seat, withSeq_seat_same]
  simp only [State.seat, Seat.of, Sequencer.dropStepFrame, list, causes]

theorem becomeHalted_vessels (v : Vessel) (s : State) : (becomeHalted v s).vessels = s.vessels :=
  vessels_of_still (forceZero_still ..)

theorem leftSuspended_vessels (v : Vessel) (s : State) : (leftSuspended v s).vessels = s.vessels := by
  unfold leftSuspended
  split
  · exact vessels_of_works (boilPump_works s)
  · rfl

/-- A sequencer with a step is HALTED without one. -/
theorem halt_step (reset : Bool)
    (h : (s.seqs.get v).state = .running ∨ (s.seqs.get v).state = .suspended ∨ (s.seqs.get v).state = .blocked) :
    (halt v reset s).seat = (becomeHalted v (haltStep v s)).seat
      ∧ (halt v reset s).vessels = (becomeHalted v (haltStep v s)).vessels := by
  unfold halt
  obtain e | e | e := h <;> rw [e]
  · exact ⟨rfl, rfl⟩
  · exact ⟨leftSuspended_seat .., leftSuspended_vessels ..⟩
  · exact ⟨rfl, rfl⟩

/-- What a halt comes to for the vessels: every other sequencer stays, and no authority changes. -/
structure Halts (v : Vessel) (s t : State) : Prop where
  outer  : t.outer = s.outer
  others : ∀ w, w ≠ v → t.seat w = s.seat w
  rule   : (t.seat v).rule = (s.seat v).rule
  state  : (t.seat v).state =
    if (s.seat v).state = .idle ∧ (s.vessels.get v).occupancy ≠ .filling then .idle else .halted
  left   : (s.seat v).state = .running ∨ (s.seat v).state = .suspended ∨ (s.seat v).state = .blocked →
    (t.seat v).position = none ∧ (t.vessels.get v).stepLock = false

theorem Halts.of_becomeHalted (h : t.seat = (becomeHalted v s).seat) (ho : t.outer = s.outer)
    (hs : ¬((s.seat v).state = .idle ∧ (s.vessels.get v).occupancy ≠ .filling))
    (hl : (s.seat v).state = .running ∨ (s.seat v).state = .suspended ∨ (s.seat v).state = .blocked →
      (t.vessels.get v).stepLock = false) : Halts v s t := by
  have same : t.seat v = { s.seat v with state := .halted, position := none } := by rw [h, becomeHalted_seat_same]
  refine ⟨ho, fun w hw => by rw [h, becomeHalted_seat_other s hw], by rw [same], ?_, fun x => ⟨by rw [same], hl x⟩⟩
  rw [same, if_neg hs]

theorem Halts.of_works {u : State} (h : Halts v s t) (hw : u.works = t.works) : Halts v s u := by
  obtain ⟨outer, others, rule, state, left⟩ := h
  rw [← outer_of_works hw] at outer
  rw [← seat_of_works hw] at others rule state left
  rw [← vessels_of_works hw] at left
  exact ⟨outer, others, rule, state, left⟩

theorem halt_halts (v : Vessel) (s : State) : Halts v s (halt v false s) := by
  have outer := halt_outer v false s
  have step (h : (s.seat v).state = .running ∨ (s.seat v).state = .suspended ∨ (s.seat v).state = .blocked) :
      Halts v s (halt v false s) := by
    obtain ⟨seat, vessels⟩ := halt_step (s := s) (v := v) false h
    refine .of_becomeHalted (seat.trans ?_) outer (fun x => ?_) fun _ => ?_
    · funext w
      by_cases e : w = v
      · rw [e, becomeHalted_seat_same, becomeHalted_seat_same, haltStep_seat]
      · rw [becomeHalted_seat_other _ e, becomeHalted_seat_other _ e, haltStep_seat]
    · rw [x.1] at h
      simp at h
    · rw [vessels, becomeHalted_vessels, haltStep_vessels, PerVessel.get_set_same]
  cases e : (s.seat v).state with
  | running => exact step (.inl e)
  | suspended => exact step (.inr (.inl e))
  | blocked => exact step (.inr (.inr e))
  | armed =>
    have run : halt v false s = becomeHalted v s := by
      unfold halt
      rw [show (s.seqs.get v).state = .armed from e]
    rw [run] at outer ⊢
    exact .of_becomeHalted rfl outer (by rw [e]; simp) (by rw [e]; simp)
  | halted =>
    have run : halt v false s = s := by
      unfold halt
      rw [show (s.seqs.get v).state = .halted from e]
    rw [run]
    refine ⟨rfl, fun _ _ => rfl, rfl, ?_, ?_⟩ <;> rw [e]
    · rfl
    · simp
  | idle =>
    have run : halt v false s = if (s.vessels.get v).occupancy = .filling then becomeHalted v s else s := by
      unfold halt
      rw [show (s.seqs.get v).state = .idle from e]
      simp
    rw [run] at outer ⊢
    split at outer
    · rename_i filling
      rw [if_pos filling]
      exact .of_becomeHalted rfl outer (fun x => x.2 filling) (by rw [e]; simp)
    · rename_i other
      rw [if_neg other]
      refine ⟨rfl, fun _ _ => rfl, rfl, ?_, ?_⟩ <;> rw [e]
      · exact (if_pos ⟨rfl, other⟩).symm
      · simp

end Sys2Proof.Machine
end

section
/-! The notices of a panel (R35, R38, R39, R42, R83). -/

namespace Sys2Proof.Machine

variable {s t : State} {v w : Vessel} {a : Authority} {n row : Nat}

/-! ### A change of authority (R35) -/

/-- A vessel's authority replaced, and nothing else. -/
def withAuthority (v : Vessel) (a : Authority) (s : State) : State :=
    withVessel v (fun r => { r with authority := a }) s

theorem withAuthority_same (h : (s.vessels.get v).authority = a) : withAuthority v a s = s := by
  subst h
  show { s with vessels := s.vessels.set v (s.vessels.get v) } = s
  rw [PerVessel.set_get]

/-- What an event leaves of the events turns on the events before it. -/
theorem raise_events (k : EventKind) (u : Subject) (b : Option Nat) (x : EventArg) (ha : t.agent = s.agent)
    (ht : t.loopTime = s.loopTime) : (raise k u b x t).agent.events = (raise k u b x s).agent.events := by
  unfold raise
  simp only [ha, ht]
  split
  · split <;> split <;> simp [latch_events, ha]
  · simp [withAgent, ha]

theorem putAuthority_works (c : AuthorityCause) : (putAuthority v a c s).works = (withAuthority v a s).works :=
  raiseVessel_works ..

theorem putAuthority_events (c : AuthorityCause) (ha : t.agent = s.agent) (ht : t.loopTime = s.loopTime)
    (ho : (t.vessels.get v).occupant = (s.vessels.get v).occupant) :
    EventsFollow (raise .authorityChanged (.vessel v) (s.vessels.get v).occupant (.num (authorityCauseCode c)) s)
      (putAuthority v a c t) := by
  refine (EventsFollow.refl _).of_events ?_
  have occupant : occupantOf (withAuthority v a t) v = (s.vessels.get v).occupant := by
    show ((t.vessels.set v { t.vessels.get v with authority := a }).get v).occupant = _
    rw [PerVessel.get_set_same]
    exact ho
  show (raise .authorityChanged (.vessel v) (occupantOf (withAuthority v a t) v) _
    (withAuthority v a t)).agent.events = _
  rw [occupant]
  exact raise_events _ _ _ _ ha ht

theorem tellCast_works (v : Vessel) (a : Authority) (s : State) : (tellCast v a s).works = s.works := by
  unfold tellCast
  simp only
  split
  · split
    · rw [tryIssue_works, reviewPauses_works]
    · exact reviewPauses_works s
  · rfl

theorem slotsOfVessel_ruled (v : Vessel) (s : State) : (slotsOfVessel v s).ruled = s.ruled :=
  ruled_of_seats (emptySlots_outer ..) fun _ => congrArg (fun x : Vessel → Seat => (x _).rule) (emptySlots_seat ..)

theorem syncCauses_ruled (v : Vessel) (s : State) : (syncCauses v s).ruled = s.ruled := by
  refine ruled_of_seats (syncCauses_outer ..) fun w => ?_
  by_cases e : w = v
  · rw [e, (syncCauses_synced v s).rule]
  · rw [syncCauses_seat_other s e]

theorem changeAuthority_same (c : AuthorityCause) (h : (s.vessels.get v).authority = a) : changeAuthority v a c s = s :=
  if_pos h

theorem changeAuthority_eq (c : AuthorityCause) (h : (s.vessels.get v).authority ≠ a) :
    changeAuthority v a c s
      = if a = .hand then slotsOfVessel v (tellCast v a (syncCauses v (putAuthority v a c s)))
        else tellCast v a (syncCauses v (putAuthority v a c s)) := if_neg h

theorem changeAuthority_ruled (c : AuthorityCause) (h : (s.vessels.get v).authority ≠ a) :
    (changeAuthority v a c s).ruled = (withAuthority v a s).ruled := by
  have told : (tellCast v a (syncCauses v (putAuthority v a c s))).ruled = (withAuthority v a s).ruled := by
    rw [ruled_of_works (tellCast_works ..), syncCauses_ruled, ruled_of_works (putAuthority_works c)]
  rw [changeAuthority_eq c h]
  split
  · exact (slotsOfVessel_ruled ..).trans told
  · exact told

theorem changeAuthority_events {r : State} (c : AuthorityCause) (h : (s.vessels.get v).authority ≠ a)
    (he : EventsFollow r (putAuthority v a c s)) : EventsFollow r (changeAuthority v a c s) := by
  have told := tellCast_quiet v a (syncCauses_quiet v he)
  rw [changeAuthority_eq c h]
  split
  · exact slotsOfVessel_quiet v told
  · exact told

/-! ### The emergency stop (R42) -/

/-- The vessel in HAND with its slots emptied and, for the whirlpool, its cast ended: an ESTOP but for the halt. -/
def seized (v : Vessel) (s : State) : State :=
  let u := if (s.vessels.get v).authority = .auto then slotsOfVessel v (putAuthority v .hand .panelEstop s) else s
  if v = .whirlpool then endTrigger .estop u else u

theorem estop_eq (v : Vessel) (s : State) : estop v s =
    tellCast v .hand (syncCauses v (halt v false (seized v s))) := rfl

theorem Authority.hand_of_not_auto (h : a ≠ .auto) : a = .hand := by
  cases a with
  | auto => exact absurd rfl h
  | hand => rfl

theorem seized_kept (v : Vessel) (s : State) : (seized v s).outer = s.outer
    ∧ (seized v s).seat = (withAuthority v .hand s).seat
      ∧ (seized v s).vessels = (withAuthority v .hand s).vessels := by
  have changed (u : State) (hu : u = if (s.vessels.get v).authority = .auto then
        slotsOfVessel v (putAuthority v .hand .panelEstop s) else s) : u.outer = s.outer
      ∧ u.seat = (withAuthority v .hand s).seat ∧ u.vessels = (withAuthority v .hand s).vessels := by
    split at hu <;> rw [hu]
    · refine ⟨?_, ?_, ?_⟩
      · exact (emptySlots_outer ..).trans ((raiseVessel_outer ..).trans rfl)
      · exact (emptySlots_seat ..).trans (seat_of_works (putAuthority_works _))
      · exact (vessels_of_calm (emptySlots_calm ..)).trans (vessels_of_works (putAuthority_works _))
    · rename_i other
      rw [withAuthority_same (Authority.hand_of_not_auto other)]
      exact ⟨rfl, rfl, rfl⟩
  unfold seized
  simp only
  split
  · rw [outer_of_works (endTrigger_works ..), seat_of_works (endTrigger_works ..),
      vessels_of_works (endTrigger_works ..)]
    exact changed _ rfl
  · exact changed _ rfl

theorem seized_events_hand (h : (s.vessels.get v).authority = .hand) : EventsFollow s (seized v s) := by
  unfold seized
  simp only [h, reduceCtorEq, if_false]
  split
  · exact endTrigger_quiet _ (.refl s)
  · exact .refl s

theorem seized_events_auto {r : State} (h : (s.vessels.get v).authority = .auto)
    (he : EventsFollow r (putAuthority v .hand .panelEstop s)) : EventsFollow r (seized v s) := by
  unfold seized
  simp only [h, if_true]
  split
  · exact endTrigger_quiet _ (slotsOfVessel_quiet v he)
  · exact slotsOfVessel_quiet v he

theorem estop_events {r : State} (h : EventsFollow r (seized v s)) : EventsFollow r (estop v s) :=
  tellCast_quiet v .hand (syncCauses_quiet v (halt_quiet v false h))

/-- The causes of an IDLE or HALTED sequencer are noted, and nothing follows. -/
theorem syncCauses_resting (h : (s.seat v).state = .idle ∨ (s.seat v).state = .halted) :
    syncCauses v s = causesNoted v s := by
  rw [syncCauses_eq]
  obtain e | e := h <;> rw [e]

/-- An ESTOP puts the vessel in HAND and halts its sequencer (R42, R82). -/
theorem estop_halts (v : Vessel) (s : State) : (estop v s).ruled = (withAuthority v .hand s).ruled
    ∧ Halts v (withAuthority v .hand s) (estop v s) := by
  obtain ⟨outer, seat, vessels⟩ := seized_kept v s
  have halts := halt_halts v (seized v s)
  have rests : ((halt v false (seized v s)).seat v).state = .idle
      ∨ ((halt v false (seized v s)).seat v).state = .halted := by
    rw [halts.state]
    split
    · exact .inl rfl
    · exact .inr rfl
  have run : (estop v s).works = (causesNoted v (halt v false (seized v s))).works := by
    rw [estop_eq, tellCast_works, syncCauses_resting rests]
  have noted := causesNoted_seat v (halt v false (seized v s))
  have now : Halts v (withAuthority v .hand s) (estop v s) := by
    refine ⟨?_, fun w hw => ?_, ?_, ?_, fun x => ?_⟩
    · exact (outer_of_works run).trans (halts.outer.trans outer)
    · rw [seat_of_works run, causesNoted, withSeq_seat_other _ hw, halts.others w hw, seat]
    · rw [seat_of_works run, noted]
      exact halts.rule.trans (by rw [seat])
    · rw [seat_of_works run, noted]
      exact halts.state.trans (by rw [seat, vessels])
    · rw [seat_of_works run, noted, vessels_of_works run]
      exact halts.left (by rw [seat]; exact x)
  refine ⟨ruled_of_seats now.outer fun w => ?_, now⟩
  by_cases e : w = v
  · rw [e, now.rule]
  · rw [now.others w e]

/-! ### CONTINUE (R83) -/

/-- What the walk of the additions waits for and where it stands (R102). -/
def State.walk (s : State) : Option Nat × Option LoopTime × Nat := (s.boil.pending, s.boil.confirmTimer, s.boil.cursor)

/-- What neither the sending of additions nor the settling of the blocks changes: the walk and the mash records. -/
def State.ledger (s : State) : (Option Nat × Option LoopTime × Nat) × List (Option (Nat × Option (Nat × Nat))) :=
  (s.walk, s.rests)

theorem ledger_of_bare (h : t.bare = s.bare) : t.ledger = s.ledger := by
  show t.bare.ledger = s.bare.ledger
  rw [h]

theorem withBoilRecord_ledger (n : Nat) (f : BoilRecord → BoilRecord) (s : State) :
    (withBoilRecord n f s).ledger = s.ledger := Prod.ext rfl (withBrew_rests fun _ => rfl)

theorem recordMissed_ledger (n i : Nat) (c : MissCause) (s : State) : (recordMissed n i c s).ledger = s.ledger :=
  (ledger_of_bare (raiseBoil_bare ..)).trans (withBoilRecord_ledger ..)

theorem recordFired_ledger (n i : Nat) (s : State) : (recordFired n i s).ledger = s.ledger :=
  (ledger_of_bare (raiseBoil_bare ..)).trans (withBoilRecord_ledger ..)

theorem pumpSend_ledger (k : Nat) (s : State) : (pumpSend k s).ledger = s.ledger := by
  induction k generalizing s with
  | zero => rfl
  | succ k ih =>
    unfold pumpSend
    split
    · rfl
    · split
      · rfl
      · rename_i e _ _
        split
        · exact ih _
        · have offered := ledger_of_bare (offerAddition_bare e s)
          split <;> (rename_i eq; rw [eq] at offered)
          · rw [ih, recordMissed_ledger]; exact offered
          · exact offered
          · rw [recordFired_ledger]; exact offered
          · rw [ih, recordFired_ledger]; exact offered

theorem joinSend_ledger (n i : Nat) (x : AdditionRow) (s : State) : (joinSend n i x s).ledger = s.ledger := by
  unfold joinSend
  split
  · exact pumpSend_ledger ..
  · exact recordMissed_ledger ..

theorem tryIssue_ledger (s : State) : (tryIssue s).ledger = s.ledger := by
  unfold tryIssue
  split
  · rfl
  · split
    · rfl
    · rename_i c _ _ _ _
      split
      · have offered := ledger_of_bare (offerDrive_bare (lineRow s.tables).dose 1000 (.pitchUnit c.number) s)
        split <;> (rename_i eq; rw [eq] at offered; exact offered)
      · rfl

theorem doseFrameLeft_ledger (n : Nat) (s : State) : (doseFrameLeft n s).ledger = s.ledger := by
  unfold doseFrameLeft
  simp only
  rw [tryIssue_ledger]
  split <;> rfl

theorem drainTells_ledger (k : Nat) (s : State) : (drainTells k s).ledger = s.ledger := by
  induction k generalizing s with
  | zero => rfl
  | succ k ih =>
    unfold drainTells
    split
    · rfl
    · rename_i o rest _
      rw [ih]
      cases o with
      | boilUnit => exact pumpSend_ledger ..
      | pitchUnit c => exact doseFrameLeft_ledger ..
      | agent | guardUnit | sequencer | castMeter => rfl

theorem settle_ledger (s : State) : (settle s).ledger = s.ledger := by
  have refreshed := congrArg State.ledger (refreshAll_rest vessels (drainTells 64 s))
  have conditions := ledger_of_bare (syncConditions_bare (vessels.foldl refreshSync (drainTells 64 s)))
  exact conditions.trans (refreshed.trans (drainTells_ledger 64 s))

theorem boilContinue_idle (h : s.boil.pending = none) : boilContinue s = s := by
  unfold boilContinue
  rw [h]

/-- A pending addition is confirmed (R102). -/
theorem boilContinue_walk {i : Nat} {b : Brew} (h : s.boil.pending = some i)
    (ho : s.vessels.kettle.occupant = some n) (hb : brew? s n = some b) :
    (boilContinue s).walk = (none, none, i + 1) := by
  have brew : occupantBrew? s .kettle = some b := by
    unfold occupantBrew?
    rw [show occupantOf s .kettle = some n from ho]
    exact hb
  unfold boilContinue
  rw [h, brew]
  exact congrArg Prod.fst (joinSend_ledger ..)

/-- Anywhere but at a BOIL, or a WAIT or TRANSFER in effect, a CONTINUE does nothing (R83). -/
theorem continueSeq_nothing (h : ∀ st, currentStep s v = some st →
    st.kind ≠ .boil ∧ (st.kind = .wait ∨ st.kind = .transfer → (s.seqs.get v).phase ≠ .inEffect)) :
    (continueSeq v s).2 = s := by
  unfold continueSeq
  cases hst : currentStep s v with
  | none => rfl
  | some st =>
    obtain ⟨noBoil, notYet⟩ := h st hst
    simp only
    cases kind : st.kind with
    | wait => simp only [if_neg (notYet (.inl kind))]
    | transfer => simp only [if_neg (notYet (.inr kind))]
    | boil => exact absurd kind noBoil
    | hold | ramp | drive | cast => rfl

theorem continueSeq_boil {st : StepRow} (h : currentStep s v = some st) (kind : st.kind = .boil) :
    (continueSeq v s).2 = boilContinue s := by
  unfold continueSeq
  simp only [h, kind]

theorem continueSeq_wait {st : StepRow} (h : currentStep s v = some st) (kind : st.kind = .wait)
    (phase : (s.seqs.get v).phase = .inEffect) : (continueSeq v s).2 = completeStep v s := by
  unfold continueSeq
  simp only [h, kind, phase, if_true]

theorem continueSeq_transfer {st : StepRow} (h : currentStep s v = some st) (kind : st.kind = .transfer)
    (phase : (s.seqs.get v).phase = .inEffect) : (continueSeq v s).2.works = (completeTransfer v st s).works := by
  have left (t : State) : (leftSuspended v t).works = t.works := by
    unfold leftSuspended
    split
    · exact boilPump_works t
    · rfl
  unfold continueSeq
  simp only [h, kind, phase, if_true]
  split
  · exact left _
  · rfl

/-! ### The notice (R32) -/

/-- A NOTICE for the part from a station's point is taken by its row (R9, R32). -/
theorem exec_notice {f : Frame} (l : Listening s) (g : f.Good) (kind : f.kind = 0x03)
    (hs : f.source ≠ s.stationAddress) (hh : f.hop.toNat < 64) (hd : f.dest = s.stationAddress) :
    exec (.frameComplete f.bytes) s = .next (settle (takeNotice f s.heard)) := by
  have other : f.kind ≠ kindSample := by rw [kind]; decide
  rw [exec_consumed l g hs hh hd, consumeFrame_tapped (.inr kind), tapped, if_neg other]

theorem takeNotice_panel {f : Frame} {code : NoticeCode}
    (hp : findPoint s.tables f.source.toNat (f.payload.getD 0 0).toNat = some row)
    (panel : (pointRow s.tables row).kind = .panel) (bound : (pointRow s.tables row).binding = .vessel v)
    (hc : noticeCodeOf (f.payload.getD 1 0).toNat = some code) : takeNotice f s = panelNotice v row code s := by
  unfold takeNotice byteAt
  simp only [hp, hc, panel, bound]

theorem takeNotice_stroke {f : Frame} (hp : findPoint s.tables f.source.toNat (f.payload.getD 0 0).toNat = some row)
    (dose : (pointRow s.tables row).kind = .doseDrive) (code : f.payload.getD 1 0 = 5)
    (valid : lineValid s.tables = true) (names : (lineRow s.tables).dose = row) : takeNotice f s = strokeDone s := by
  have hc : noticeCodeOf (f.payload.getD 1 0).toNat = some .strokeDone := by rw [code]; rfl
  unfold takeNotice byteAt
  simp only [hp, hc, dose, valid, names, beq_self_eq_true, Bool.and_self, if_true]

end Sys2Proof.Machine
end

section
/-! The dosing station's STROKE_DONE (R133), and what each notice for the part does (R32, R33). -/

namespace Sys2Proof.Machine

variable {s t : State} {v w : Vessel} {row : Nat}

/-! ### STROKE_DONE (R133) -/

theorem maybeCharge_stays
    (h : ∀ k, s.castMeter.record = some k → ¬(k.state = .settling ∧ k.settleOver = true)) : maybeCharge s = s := by
  unfold maybeCharge
  split
  · rfl
  · rename_i c hc
    exact if_neg fun x => h c hc ⟨x.1, x.2.1⟩

/-- An event leaves the cast that enters CHARGING, or stays. -/
theorem maybeCharge_raiseCast (k : EventKind) (x : EventArg)
    (h : ∀ c, s.castMeter.record = some c → ¬(c.state = .settling ∧ c.settleOver = true)) :
    maybeCharge (raiseCast k x s) = raiseCast k x s := by
  refine maybeCharge_stays ?_
  rw [castMeter_of_bare (raiseCast_bare ..)]
  exact h

theorem raiseCast_some {c : Cast} (k : EventKind) (x : EventArg) (h : s.castMeter.record = some c) :
    raiseCast k x s = raise k (.cast c.number) (some c.brew) x s := by
  unfold raiseCast
  rw [h]

theorem strokeDone_noCast (h : s.castMeter.record = none) :
    strokeDone s = raise .doseSequence .none none (.num 1) s := by
  have part : strokeDonePart s = raiseCast .doseSequence (.num 1) s := by
    unfold strokeDonePart
    rw [h]
    rfl
  have named : raiseCast .doseSequence (.num 1) s = raise .doseSequence .none none (.num 1) s := by
    unfold raiseCast
    rw [h]
  rw [strokeDone, part, maybeCharge_raiseCast _ _ (by simp [h]), named]

section
variable {k : Cast} {p : PitchPart} (hk : s.castMeter.record = some k)
include hk

/-- With no pitch part at work a STROKE_DONE is NOT_DOSING. -/
theorem strokeDone_notDosing
    (h : (k.pitch = none ∧ k.settleOver = false) ∨ k.state = .charging ∨ k.state = .closed) :
    strokeDone s = raise .doseSequence (.cast k.number) (some k.brew) (.num 1) s := by
  have part : strokeDonePart s = raiseCast .doseSequence (.num 1) s := by
    unfold strokeDonePart
    simp only [hk]
    cases hp : k.pitch with
    | none => rfl
    | some p =>
      have stopped : k.state.pitches = false := by
        rw [hp] at h
        obtain x | x | x := h
        · cases x.1
        · rw [x]; rfl
        · rw [x]; rfl
      simp only [stopped, Bool.not_false, if_true]
      rfl
  rw [strokeDone, part, maybeCharge_raiseCast, raiseCast_some _ _ hk]
  intro c hc x
  cases hk.symm.trans hc
  obtain e | e | e := h
  · rw [e.2] at x; cases x.2
  · rw [e] at x; cases x.1
  · rw [e] at x; cases x.1

variable (hp : k.pitch = some p)
    (state : k.state = .opening ∨ k.state = .metering ∨ k.state = .paused ∨ k.state = .settling)
include hp state

theorem strokeDonePart_outstanding (out : p.outstanding = true) :
    strokeDonePart s = tryIssue (testLag (withPitch PitchPart.confirm s)) := by
  unfold strokeDonePart
  simp only [hk, hp, (CastState.pitches_iff k.state).2 state, out, Bool.not_true, Bool.false_eq_true, if_false, if_true]

/-- The one outstanding stroke is confirmed, and at most one follows it (R131, R133). -/
theorem strokeDone_doses (out : p.outstanding = true) (room : p.issued + 1 < 2 ^ 64) :
    Doses s k.number p.confirm (settle (strokeDone s)) := by
  have begun : Doses s k.number p.confirm (withPitch PitchPart.confirm s) :=
    .start (withPitch_works ..) (by rw [withPitch_castMeter hk hp]) rfl rfl
  have part : Doses s k.number p.confirm (strokeDonePart s) := by
    rw [strokeDonePart_outstanding hk hp state out]
    exact begun.testLag.tryIssue room
  exact part.maybeCharge.settle room

variable (free : p.outstanding = false) (settling : k.settleOver = false)
include free settling

omit state free in
/-- A notice with no stroke outstanding changes the part and is told. -/
theorem strokeDone_unexpected {f : PitchPart → PitchPart} {e : EventKind} {x : Nat}
    (h : strokeDonePart s = raiseCast e (.num x) (withPitch f s)) :
    strokeDone s = raise e (.cast k.number) (some k.brew) (.num x)
      { s with castMeter := { s.castMeter with record := some { k with pitch := some (f p) } } } := by
  have changed : withPitch f s
      = { s with castMeter := { s.castMeter with record := some { k with pitch := some (f p) } } } := by
    rw [← withPitch_castMeter hk hp f]
    rfl
  rw [strokeDone, h, changed, maybeCharge_raiseCast, raiseCast_some (c := { k with pitch := some (f p) }) _ _ rfl]
  intro c hc y
  cases hc
  exact absurd (settling.symm.trans y.2) (by decide)

theorem strokeDone_late (due : 0 < p.unconfirmed) (room : p.confirmed + 1 < 2 ^ 64) :
    strokeDone s = raise .doseLate (.cast k.number) (some k.brew) (.num (p.unconfirmed - 1))
      { s with castMeter := { s.castMeter with record := some { k with pitch := some { p with
        unconfirmed := p.unconfirmed - 1, confirmed := p.confirmed + 1, late := min 65535 (p.late + 1) } } } } := by
  have part : strokeDonePart s
      = raiseCast .doseLate (.num (p.unconfirmed - 1)) (withPitch PitchPart.confirmLate s) := by
    unfold strokeDonePart
    simp only [hk, hp, (CastState.pitches_iff k.state).2 state, free, due, Bool.not_true, Bool.false_eq_true,
      if_false, if_true]
  rw [strokeDone_unexpected hk hp settling part, PitchPart.confirmLate, fit_of_lt room]
  rfl

theorem strokeDone_outOfSequence (due : p.unconfirmed = 0) :
    strokeDone s = raise .doseSequence (.cast k.number) (some k.brew) (.num 0)
      { s with castMeter := { s.castMeter with record := some { k with pitch := some { p with
        sequence := min 65535 (p.sequence + 1) } } } } := by
  have part : strokeDonePart s = raiseCast .doseSequence (.num 0)
      (withPitch (fun p => { p with sequence := saturate 65535 p.sequence }) s) := by
    unfold strokeDonePart
    simp only [hk, hp, (CastState.pitches_iff k.state).2 state, free, due, Bool.not_true, Bool.false_eq_true, if_false,
      Nat.lt_irrefl]
    rfl
  rw [strokeDone_unexpected hk hp settling part]
  rfl

end

theorem raise_tells (k : EventKind) (u : Subject) (b : Option Nat) (x : EventArg) (s : State) :
    (raise k u b x s).tells = s.tells := by
  have latched (c : Cond) (t : State) : (latch c t).tells = t.tells := by
    rw [latch_eq_latched]
    rfl
  unfold raise
  simp only
  split
  · split <;> split <;> simp only [latched]
  · rfl

/-! ### A panel's notices (R35, R38, R39, R42) -/

/-- A NOTICE for the part from the panel of a vessel (R32). -/
structure FromPanel (f : Frame) (v : Vessel) (row : Nat) (s : State) : Prop extends Listening s where
  good   : f.Good
  kind   : f.kind = 0x03
  source : f.source ≠ s.stationAddress
  hop    : f.hop.toNat < 64
  dest   : f.dest = s.stationAddress
  point  : findPoint s.tables f.source.toNat (f.payload.getD 0 0).toNat = some row
  panel  : (pointRow s.tables row).kind = .panel
  bound  : (pointRow s.tables row).binding = .vessel v

/-- A vessel's authority is replaced and told first; no other changes (R35). -/
def AuthorityBecomes (i : Instr) (v : Vessel) (a : Authority) (cause : Nat) (s : State) : Prop :=
  ∃ t, exec i s = .next t ∧ t.ruled = (withAuthority v a s.heard).ruled
    ∧ EventsFollow (raise .authorityChanged (.vessel v) (s.vessels.get v).occupant (.num cause) s) t

section
variable {f : Frame} (h : FromPanel f v row s)
include h

theorem FromPanel.exec {y : Byte} {code : NoticeCode} (hy : f.payload.getD 1 0 = y)
    (hc : noticeCodeOf y.toNat = some code) :
    Machine.exec (.frameComplete f.bytes) s = .next (settle (panelNotice v row code s.heard)) := by
  rw [exec_notice h.toListening h.good h.kind h.source h.hop h.dest,
    takeNotice_panel (s := s.heard) h.point h.panel h.bound (by rw [hy]; exact hc)]

omit h in
theorem authorityBecomes_changed {a : Authority} {cause : AuthorityCause} {i : Instr}
    (ha : (s.vessels.get v).authority ≠ a)
    (run : Machine.exec i s = .next (settle (changeAuthority v a cause s.heard))) :
    AuthorityBecomes i v a (authorityCauseCode cause) s := by
  refine ⟨_, run, ?_, settle_quiet (changeAuthority_events (s := s.heard) cause ha ?_)⟩
  · rw [ruled_of_works (settle_works _), changeAuthority_ruled (s := s.heard) cause ha]
  · exact putAuthority_events (s := s) (t := s.heard) cause rfl rfl rfl

theorem FromPanel.handRequest (code : f.payload.getD 1 0 = 1) :
    ((s.vessels.get v).authority = .hand → Leaves (.frameComplete f.bytes) s s.heard)
    ∧ ((s.vessels.get v).authority = .auto →
        (s.vessels.get v).supervisorLock = true ∨ (s.vessels.get v).stepLock = true →
        Leaves (.frameComplete f.bytes) s
          (raise .panelRefused (.vessel v) (s.vessels.get v).occupant (.num row) s.heard))
    ∧ ((s.vessels.get v).authority = .auto →
        ¬((s.vessels.get v).supervisorLock = true ∨ (s.vessels.get v).stepLock = true) →
        AuthorityBecomes (.frameComplete f.bytes) v .hand 0 s) := by
  have run := h.exec (code := .handRequest) code rfl
  rw [panelNotice] at run
  have locked : (s.vessels.get v).locked = true ↔
      (s.vessels.get v).supervisorLock = true ∨ (s.vessels.get v).stepLock = true := by
    unfold VesselRec.locked
    rw [Bool.or_eq_true]
  rw [← locked]
  refine ⟨fun hand => ?_, fun auto lock => ?_, fun auto free => ?_⟩
  · rw [Machine.handRequest, if_pos (show (s.heard.vessels.get v).authority = .hand from hand)] at run
    exact leaves_settled run h.tells
  all_goals
    have other : (s.heard.vessels.get v).authority ≠ .hand := by
      show (s.vessels.get v).authority ≠ .hand
      rw [auto]
      decide
  · rw [Machine.handRequest, if_neg other, if_pos (show (s.heard.vessels.get v).locked = true from lock)] at run
    refine leaves_settled run ?_
    exact (raise_tells ..).trans h.tells
  · rw [Machine.handRequest, if_neg other, if_neg (show ¬(s.heard.vessels.get v).locked = true from free)] at run
    exact authorityBecomes_changed (s := s) other run

theorem FromPanel.autoRequest (code : f.payload.getD 1 0 = 2) :
    ((s.vessels.get v).authority = .auto → Leaves (.frameComplete f.bytes) s s.heard)
    ∧ ((s.vessels.get v).authority = .hand → AuthorityBecomes (.frameComplete f.bytes) v .auto 1 s) := by
  have run := h.exec (code := .autoRequest) code rfl
  rw [panelNotice, Machine.autoRequest] at run
  refine ⟨fun auto => ?_, fun hand => authorityBecomes_changed (by rw [hand]; decide) run⟩
  rw [changeAuthority_same (s := s.heard) _ auto] at run
  exact leaves_settled run h.tells

theorem FromPanel.estop (code : f.payload.getD 1 0 = 3) :
    ((s.vessels.get v).authority = .auto → AuthorityBecomes (.frameComplete f.bytes) v .hand 2 s)
    ∧ ∃ t, Machine.exec (.frameComplete f.bytes) s = .next t ∧ t.ruled = (withAuthority v .hand s.heard).ruled
      ∧ ((s.vessels.get v).authority = .hand → EventsFollow s t) ∧ Halts v (withAuthority v .hand s.heard) t := by
  have run := h.exec (code := .estop) code rfl
  rw [panelNotice] at run
  obtain ⟨ruled, halts⟩ := estop_halts v s.heard
  have works := settle_works (Machine.estop v s.heard)
  rw [← ruled_of_works works] at ruled
  refine ⟨fun auto => ⟨_, run, ruled, settle_quiet (estop_events (seized_events_auto (s := s.heard) auto ?_))⟩,
    _, run, ruled, fun hand => settle_quiet (estop_events ?_), halts.of_works works⟩
  · exact putAuthority_events (s := s) (t := s.heard) .panelEstop rfl rfl rfl
  · exact seized_events_hand (s := s.heard) hand

/-- What a CONTINUE does, by the current step (R83). -/
theorem FromPanel.continues (code : f.payload.getD 1 0 = 4) :
    ((∀ st, currentStep s v = some st → st.kind ≠ .boil
        ∧ (st.kind = .wait ∨ st.kind = .transfer → (s.seqs.get v).phase ≠ .inEffect)) →
      Leaves (.frameComplete f.bytes) s s.heard)
    ∧ ∀ st, currentStep s v = some st →
      (st.kind = .boil → s.boil.pending = none → Leaves (.frameComplete f.bytes) s s.heard)
      ∧ (∀ i n b, st.kind = .boil → s.boil.pending = some i → s.vessels.kettle.occupant = some n →
          brew? s n = some b → ∃ t, Machine.exec (.frameComplete f.bytes) s = .next t ∧ t.works = s.heard.works
            ∧ t.walk = (none, none, i + 1))
      ∧ (∀ pos recipe, st.kind = .wait → (s.seqs.get v).phase = .inEffect → (s.seqs.get v).position = some pos →
          (s.seqs.get v).list = some recipe →
          ∃ t, Machine.exec (.frameComplete f.bytes) s = .next t ∧ StepsOn v recipe pos s.heard t)
      ∧ ∀ n w, st.kind = .transfer → (s.seqs.get v).phase = .inEffect → (s.vessels.get v).occupant = some n →
          destinationOf v = some w → (s.seqs.get w).state = .idle ∨ (s.seqs.get w).state = .halted →
          ∃ t, Machine.exec (.frameComplete f.bytes) s = .next t ∧ HandedOver v w n s.heard t := by
  have run := h.exec (code := .continue_) code rfl
  rw [panelNotice] at run
  refine ⟨fun nothing => ?_, fun st hst => ⟨fun kind idle => ?_, fun i n b kind pending occupant brew => ?_,
    fun pos recipe kind phase position list => ?_, fun n w kind phase occupant destination free => ?_⟩⟩
  · rw [continueSeq_nothing (s := s.heard) nothing] at run
    exact leaves_settled run h.tells
  · rw [continueSeq_boil (s := s.heard) hst kind, boilContinue_idle (s := s.heard) idle] at run
    exact leaves_settled run h.tells
  · rw [continueSeq_boil (s := s.heard) hst kind] at run
    refine ⟨_, run, (settle_works _).trans (boilContinue_works _), ?_⟩
    rw [show (settle (boilContinue s.heard)).walk = (boilContinue s.heard).walk from
      congrArg Prod.fst (settle_ledger _), boilContinue_walk (s := s.heard) pending occupant brew]
  · rw [continueSeq_wait (s := s.heard) hst kind phase] at run
    exact ⟨_, run, (completeStep_stepsOn (s := s.heard) position list).of_works (settle_works _)⟩
  · have works := continueSeq_transfer (s := s.heard) hst kind phase
    exact ⟨_, run, (completeTransfer_handsOver (s := s.heard) occupant destination free).of_works
      ((settle_works _).trans works)⟩

end

/-! ### The statement -/

/-- Settles O27: each code of a panel, and STROKE_DONE by what is outstanding. -/
theorem panelNoticesAct : Obligations.PanelNoticesAct := by
  refine ⟨fun f v row s l g kind hs hh hd hp panel bound => ?_,
    fun f row s l g kind hs hh hd code hp dose valid names => ?_⟩
  · have h : FromPanel f v row s := ⟨l, g, kind, hs, hh, hd, hp, panel, bound⟩
    refine ⟨h.handRequest, h.autoRequest, fun code => ?_, fun code => ?_⟩
    · obtain ⟨auto, t, run, ruled, hand, halts⟩ := h.estop code
      have same : (withAuthority v .hand s.heard).vessels.get v = { s.vessels.get v with authority := .hand } :=
        PerVessel.get_set_same ..
      have state := halts.state
      rw [same] at state
      refine ⟨auto, t, run, ruled, hand, state, halts.left, fun w hw => ?_⟩
      exact congrArg Seat.state (halts.others w hw)
    · obtain ⟨nothing, steps⟩ := h.continues code
      refine ⟨nothing, fun st hst => ?_⟩
      obtain ⟨idle, boil, wait, transfer⟩ := steps st hst
      refine ⟨idle, fun i n b kind pending occupant brew => ?_, wait, fun n w kind phase occupant dest free => ?_⟩
      · obtain ⟨t, run, works, walk⟩ := boil i n b kind pending occupant brew
        injection walk with resolved rest
        injection rest with stopped moved
        exact ⟨t, run, ruled_of_works works, resolved, stopped, moved, fun w =>
          congrArg (fun x : Vessel → Seat => (x w).state) (seat_of_works works)⟩
      · obtain ⟨t, run, ruled, ⟨empty, left, idle⟩, taken, halted, held, going⟩ :=
          transfer n w kind phase occupant dest free
        exact ⟨t, run, ruled, empty, left, idle, taken, halted, held, going⟩
  · have run := exec_notice l g kind hs hh hd
    rw [takeNotice_stroke (s := s.heard) hp dose code valid names] at run
    have leaves {k : EventKind} {u : Subject} {b : Option Nat} {x : EventArg} {t : State} (ht : t.tells = [])
        (hr : strokeDone s.heard = raise k u b x t) : Leaves (.frameComplete f.bytes) s (raise k u b x t) := by
      rw [hr] at run
      exact leaves_settled run ((raise_tells ..).trans ht)
    refine ⟨fun none => leaves l.tells (strokeDone_noCast (s := s.heard) none), fun k hk =>
      ⟨fun idle => leaves l.tells (strokeDone_notDosing (s := s.heard) hk idle), fun p working hp more room =>
      ⟨fun free settling due => leaves l.tells
        (strokeDone_late (s := s.heard) hk hp working free settling due more), fun free settling none => leaves l.tells
        (strokeDone_outOfSequence (s := s.heard) hk hp working free settling none), fun out => ?_⟩⟩⟩
    obtain ⟨works, d, r, hd, number, hr, goes⟩ := strokeDone_doses (s := s.heard) hk hp working out room
    have confirmed : p.confirm.confirmed = p.confirmed + 1 := fit_of_lt more
    exact ⟨_, d, r, run, works, hd, number, hr, goes.confirmed.trans confirmed, goes.unconfirmed, goes.consecutive,
      goes.target, goes.strokes⟩

end Sys2Proof.Machine
end

section
/-! The arithmetic of the heating loop and of the ramp (R86, R92). -/

namespace Sys2Proof.Machine

/-! ### The heating loop (R92) -/

/-- Division toward zero of a number that is not positive. -/
theorem tdiv_of_nonpos {a : Int} (h : a ≤ 0) (b : Int) : a.tdiv b = -(-a / b) := by
  have negated := Int.neg_tdiv a b
  rw [Int.tdiv_eq_ediv_of_nonneg (Int.neg_nonneg_of_nonpos h)] at negated
  rw [negated, Int.neg_neg]

/-- The integral after a step `dI` under the trial demand (R92): it does not wind up against an end of the demand. -/
def wind (trial i dI : Int) : Int :=
  if (1000 < trial ∧ 0 < dI) ∨ (trial < 0 ∧ dI < 0) then i else clampInt (i + dI) 0 1000000

section
variable {trial i dI : Int} (hl : 0 ≤ i) (hh : i ≤ 1000000)
include hl hh

theorem wind_range : 0 ≤ wind trial i dI ∧ wind trial i dI ≤ 1000000 := by
  unfold wind clampInt
  split <;> omega

theorem wind_zero : wind trial i 0 = i := by
  unfold wind clampInt
  split <;> omega

theorem wind_up (h : 0 ≤ dI) : i ≤ wind trial i dI := by
  unfold wind clampInt
  split <;> omega

theorem wind_down (h : dI ≤ 0) : wind trial i dI ≤ i := by
  unfold wind clampInt
  split <;> omega

theorem wind_held (h : (1000 < trial ∧ 0 ≤ dI) ∨ (trial < 0 ∧ dI ≤ 0)) : wind trial i dI = i := by
  unfold wind clampInt
  split <;> omega

end

/-- The parts of R92 that the error `e` gives: the proportional part, and the integral's step. -/
def proportional (kp : Nat) (e : Int) : Int := Int.tdiv (kp * e) 100
def integralStep (ki : Nat) (e : Int) (dt : Nat) : Int := Int.tdiv (ki * e * dt) 6000

theorem piDemand_eq (kp ki : Nat) (setpoint value i : Int) (dt : Nat) :
    piDemand kp ki setpoint value i dt =
      let p := proportional kp (setpoint - value)
      let dI := integralStep ki (setpoint - value) dt
      let w := wind (p + Int.tdiv i 1000 + Int.tdiv dI 1000) i dI
      (w, (clampInt (p + w / 1000) 0 1000).toNat) := rfl

section
variable {ki dt : Nat} {e : Int}

theorem integralStep_nonneg (h : 0 ≤ e) : 0 ≤ integralStep ki e dt :=
  Int.tdiv_nonneg (Int.mul_nonneg (Int.mul_nonneg (Int.natCast_nonneg ki) h) (Int.natCast_nonneg dt)) (by decide)

theorem integralStep_nonpos (h : e ≤ 0) : integralStep ki e dt ≤ 0 := by
  have product : (ki : Int) * e * dt ≤ 0 :=
    Int.mul_nonpos_of_nonpos_of_nonneg (Int.mul_nonpos_of_nonneg_of_nonpos (Int.natCast_nonneg ki) h)
      (Int.natCast_nonneg dt)
  unfold integralStep
  rw [tdiv_of_nonpos product]
  omega

theorem integralStep_noError : integralStep ki 0 dt = 0 := by simp [integralStep]
theorem integralStep_noTime : integralStep ki e 0 = 0 := by simp [integralStep]

end

/-- An error that alone holds the demand at an end leaves the integral (R92). -/
theorem wind_saturated {kp ki dt : Nat} {e i : Int} (hl : 0 ≤ i) (hh : i ≤ 1000000)
    (h : 100100 ≤ kp * e ∨ 100100 ≤ kp * -e) :
    wind (proportional kp e + Int.tdiv i 1000 + Int.tdiv (integralStep ki e dt) 1000) i (integralStep ki e dt) = i := by
  have integral := Int.tdiv_eq_ediv_of_nonneg (b := 1000) hl
  have sign {x : Int} (hx : 100100 ≤ kp * x) : 0 ≤ x := by
    by_contra negative
    have product : (kp : Int) * x ≤ 0 := Int.mul_nonpos_of_nonneg_of_nonpos (Int.natCast_nonneg kp) (by omega)
    omega
  obtain above | below := h
  · have up : 0 ≤ integralStep ki e dt := integralStep_nonneg (sign above)
    have p : proportional kp e = kp * e / 100 := Int.tdiv_eq_ediv_of_nonneg (by omega)
    have step := Int.tdiv_nonneg (b := 1000) up (by decide)
    exact wind_held hl hh (.inl ⟨by omega, up⟩)
  · have down : integralStep ki e dt ≤ 0 := integralStep_nonpos (by have := sign below; omega)
    rw [Int.mul_neg] at below
    have p : proportional kp e = -(-(kp * e) / 100) := tdiv_of_nonpos (by omega) 100
    have step := tdiv_of_nonpos down 1000
    exact wind_held hl hh (.inr ⟨by omega, down⟩)

theorem piDemand_bounds (kp ki : Nat) (setpoint value i : Int) (dt : Nat) (hl : 0 ≤ i) (hh : i ≤ 1000000) :
    let r := piDemand kp ki setpoint value i dt
    (0 ≤ r.1 ∧ r.1 ≤ 1000000 ∧ r.2 ≤ 1000)
    ∧ (setpoint = value → r.1 = i ∧ (r.2 : Int) = i / 1000)
    ∧ (dt = 0 → r.1 = i)
    ∧ (100100 ≤ kp * (setpoint - value) ∨ 100100 ≤ kp * (value - setpoint) → r.1 = i)
    ∧ (value < setpoint → i ≤ r.1) ∧ (setpoint < value → r.1 ≤ i) := by
  intro r
  have eq := piDemand_eq kp ki setpoint value i dt
  have range := wind_range hl hh (trial := proportional kp (setpoint - value) + Int.tdiv i 1000
    + Int.tdiv (integralStep ki (setpoint - value) dt) 1000) (dI := integralStep ki (setpoint - value) dt)
  refine ⟨⟨range.1, range.2, ?_⟩, fun same => ?_, fun still => ?_, fun saturated => ?_, fun below => ?_,
    fun above => ?_⟩
  · show (clampInt _ 0 1000).toNat ≤ 1000
    unfold clampInt
    omega
  · have none : setpoint - value = 0 := by omega
    rw [none, integralStep_noError] at eq
    simp only [wind_zero hl hh] at eq
    have p : proportional kp 0 = 0 := by simp [proportional]
    rw [p] at eq
    show (piDemand kp ki setpoint value i dt).1 = i ∧ ((piDemand kp ki setpoint value i dt).2 : Int) = i / 1000
    rw [eq]
    refine ⟨rfl, ?_⟩
    show ((clampInt (0 + i / 1000) 0 1000).toNat : Int) = i / 1000
    unfold clampInt
    omega
  · subst still
    show (piDemand kp ki setpoint value i 0).1 = i
    rw [eq, integralStep_noTime]
    exact wind_zero hl hh
  · rw [← Int.neg_sub setpoint value] at saturated
    exact wind_saturated hl hh saturated
  · exact wind_up hl hh (integralStep_nonneg (by omega))
  · exact wind_down hl hh (integralStep_nonpos (by omega))

/-! ### The ramp (R86) -/

theorem rampMove_bounds (rem rate dt : Nat) (target value : Int) :
    rampMove none rem rate dt target value = (value, rem)
    ∧ rampMove (some target) rem rate dt target value = (target, rem)
    ∧ ∀ sp : Int, sp ≠ target →
      let r := rampMove (some sp) rem rate dt target value
      r.2 < 60000
      ∧ (sp < target → sp ≤ r.1 ∧ r.1 ≤ target
          ∧ (r.1 < target → 60000 * (r.1 - sp) + r.2 = rem + rate * dt))
      ∧ (target < sp → target ≤ r.1 ∧ r.1 ≤ sp
          ∧ (target < r.1 → 60000 * (sp - r.1) + r.2 = rem + rate * dt)) := by
  refine ⟨rfl, if_pos rfl, fun sp apart => ?_⟩
  have moved : rampMove (some sp) rem rate dt target value =
      (if sp < target then min target (sp + ((rem + rate * dt) / 60000 : Nat))
        else max target (sp - ((rem + rate * dt) / 60000 : Nat)), (rem + rate * dt) % 60000) := if_neg apart
  simp only [moved, ← Nat.cast_mul]
  generalize rate * dt = product
  refine ⟨by omega, fun below => ?_, fun above => ?_⟩
  · rw [if_pos below]
    omega
  · rw [if_neg (by omega)]
    omega

end Sys2Proof.Machine
end

section
/-! The offer of a heat demand (R14 to R17, R93, R94). -/

namespace Sys2Proof.Machine

variable {s t : State} {v w : Vessel}

/-! ### What an offer makes of the loop (R14 to R17) -/

/-- Two states with the same loop and the same arbiter at the same time. -/
structure LoopsAlike (s t : State) : Prop where
  loop     : t.loop = s.loop
  time     : t.loopTime = s.loopTime
  fairness : t.agent.config.fairness = s.agent.config.fairness

theorem LoopsAlike.withLoop (h : LoopsAlike s t) (f : LoopPort → LoopPort) :
    LoopsAlike (Machine.withLoop f s) (Machine.withLoop f t) :=
  ⟨congrArg f h.loop, h.time, h.fairness⟩

theorem LoopsAlike.latch (h : LoopsAlike s t) (c : Cond) : LoopsAlike (Machine.latch c s) (Machine.latch c t) := by
  rw [latch_eq_latched, latch_eq_latched]
  exact ⟨h.loop, h.time, h.fairness⟩

theorem LoopsAlike.startNext (h : LoopsAlike s t) : (Machine.startNext t).loop = (Machine.startNext s).loop := by
  have begun (q : Insertion) (rest : List Insertion) :
      (tellLeft q.owner (beginInsertion q rest t)).loop = (tellLeft q.owner (beginInsertion q rest s)).loop := by
    rw [tellLeft_loop, tellLeft_loop]
    exact (h.withLoop _).loop
  unfold Machine.startNext
  rw [h.loop, h.time, h.fairness]
  split
  · exact h.loop
  · exact h.loop
  · split
    · exact h.loop
    · exact (h.withLoop _).loop
    · exact begun ..
    · split
      · exact begun ..
      · exact (h.withLoop _).loop
    · exact (h.withLoop _).loop

theorem LoopsAlike.enterQueue (h : LoopsAlike s t) (f : Frame) (o : Owner) :
    (Machine.enterQueue f o t).2.loop = (Machine.enterQueue f o s).2.loop := by
  unfold Machine.enterQueue
  rw [h.loop, h.time]
  split
  · exact (h.withLoop _).loop
  · exact (h.withLoop _).startNext

/-- The loop an offer leaves is a matter of the loop it finds. -/
theorem LoopsAlike.offer (h : LoopsAlike s t) (f : Frame) (o : Owner) :
    (Machine.offer f o t).2.loop = (Machine.offer f o s).2.loop := by
  unfold Machine.offer
  rw [h.loop]
  simp only
  split
  · rw [tellLeft_loop, tellLeft_loop]
    exact (h.withLoop _).loop
  · split
    · exact h.enterQueue ..
    · split
      · split
        · exact ((h.withLoop _).latch _).enterQueue ..
        · exact h.loop
      · exact (h.withLoop _).loop

/-! ### The heat demand (R93, R94) -/

/-- A computed demand is offered (R93, R94). -/
def OffersHeat (s : State) (v : Vessel) (d : Nat) : Prop :=
  (s.seqs.get v).zeroForced = true
    ∨ (vesselRow s.tables v).deadband ≤ max d (s.seqs.get v).lastDemand - min d (s.seqs.get v).lastDemand
    ∨ ∃ r, heatRow? s.tables v = some r ∧ ∃ o ∈ (s.seqs.get v).unsent, o.row = r

theorem offersHeat_iff (s : State) (v : Vessel) (d : Nat) :
    OffersHeat s v d ↔ (s.seqs.get v).zeroForced = true
      ∨ (vesselRow s.tables v).deadband ≤ gap d (s.seqs.get v).lastDemand ∨ heatUnsent s v = true := by
  have same (a b : Nat) : gap a b = max a b - min a b := by
    unfold gap
    omega
  have unsent : heatUnsent s v = true ↔
      ∃ r, heatRow? s.tables v = some r ∧ ∃ o ∈ (s.seqs.get v).unsent, o.row = r := by
    unfold heatUnsent
    cases heatRow? s.tables v with
    | none => simp
    | some r => simp only [Option.some.injEq, exists_eq_left', List.any_eq_true, beq_iff_eq]
  unfold OffersHeat
  rw [same, unsent]

theorem heatDemand_keeps {d : Nat} (h : ¬OffersHeat s v d) : heatDemand v d s = s := by
  rw [offersHeat_iff] at h
  exact if_neg h

theorem PerVessel.set_set {α : Type} (p : PerVessel α) (v : Vessel) (a b : α) : (p.set v a).set v b = p.set v b := by
  cases v <;> rfl

/-- Two changes of a sequencer are one. -/
theorem withSeq_seqs_again {f : Sequencer → Sequencer} (h : t.seqs = (withSeq v f s).seqs)
    (g : Sequencer → Sequencer) : (withSeq v g t).seqs = (withSeq v (fun q => g (f q)) s).seqs := by
  rw [withSeq_seqs, h, withSeq_seqs, withSeq_seqs, PerVessel.get_set_same, PerVessel.set_set]

/-- What the offer of a heat demand changes in a sequencer's record. -/
def OfferNoted (d : Nat) (f : Sequencer → Sequencer) : Prop :=
  ∀ q, f q = { q with
    zeroForced := false, lastDemand := d, unsent := (f q).unsent, refreshTimer := (f q).refreshTimer }

/-- The offered demand is the last one, and the loop is the offer's (R93). -/
theorem heatDemand_offers {d row : Nat} {p : PointRow} (h : OffersHeat s v d) (hr : heatRow? s.tables v = some row)
    (hp : point? s.tables row = some p) : ∃ f, OfferNoted d f ∧ (heatDemand v d s).seqs = (withSeq v f s).seqs
      ∧ (heatDemand v d s).loop = (offer (driveFrame s p d) (.sequencer v) s).2.loop := by
  have run : heatDemand v d s = offerHeat v d (withSeq v (fun q => { q with zeroForced := false }) s) :=
    if_pos ((offersHeat_iff s v d).1 h)
  let noted : State :=
      withSeq v (fun q => { q with lastDemand := d }) (withSeq v (fun q => { q with zeroForced := false }) s)
  let sent := offer (driveFrame s p d) (.sequencer v) noted
  have kept : sent.2.bare.seqs = noted.bare.seqs :=
    congrArg State.seqs (offer_bare (driveFrame s p d) (.sequencer v) noted)
  have seqs : sent.2.seqs = (withSeq v (fun q => { q with zeroForced := false, lastDemand := d }) s).seqs :=
    (show sent.2.seqs = noted.seqs from kept).trans
      (withSeq_seqs_again (f := fun q => { q with zeroForced := false }) rfl fun q => { q with lastDemand := d })
  have alike : LoopsAlike s noted := ⟨rfl, rfl, rfl⟩
  have loop : sent.2.loop = (offer (driveFrame s p d) (.sequencer v) s).2.loop := alike.offer ..
  have drive : offerDrive row d (.sequencer v) noted = sent := by
    unfold offerDrive
    rw [show point? noted.tables row = some p from hp]
    rfl
  have offered := seqOffer_eq v { row := row, demand := d, ofStep := false } noted
  rw [drive] at offered
  rw [run]
  unfold offerHeat
  simp only [withSeq_tables, hr]
  rw [offered]
  have unsent := withSeq_seqs_again seqs
    fun q => { q with unsent := afterOffer sent.1 { row := row, demand := d, ofStep := false } q.unsent }
  simp only
  split
  · exact ⟨_, fun _ => rfl, withSeq_seqs_again unsent _, loop⟩
  · exact ⟨_, fun _ => rfl, unsent, loop⟩

end Sys2Proof.Machine
end

section
/-! The work of a sample on a heated vessel (R85 to R87, R92, R93). -/

namespace Sys2Proof.Machine

variable {s t u : State} {v w : Vessel} {r n : Nat} {st : StepRow} {f g : Sequencer → Sequencer}

/-! ### A brew's record changed (R62) -/

/-- A change of the brew of a number is what a search for it finds. -/
theorem brew?_withBrew {f : Brew → Brew} (hf : ∀ b, (f b).number = b.number) (n : Nat) (s : State) :
    brew? (withBrew n f s) n = (brew? s n).map f := by
  have number (b : Brew) : (if b.number = n then f b else b).number = b.number := by
    split
    · exact hf b
    · rfl
  have row : brewRow? (withBrew n f s) n = brewRow? s n := by
    unfold brewRow?
    rw [withBrew_brews, List.findIdx?_map]
    congr 1
    funext b
    cases b with
    | none => rfl
    | some b => simp only [Function.comp_apply, Option.map_some, Option.any_some, number]
  unfold brew?
  rw [row]
  cases h : brewRow? s n with
  | none => rfl
  | some i =>
    obtain ⟨inside, named, _⟩ := List.findIdx?_eq_some_iff_getElem.1 h
    simp only [Option.bind_some, withBrew_brews, List.getD_eq_getElem?_getD, List.getElem?_map,
      List.getElem?_eq_getElem inside, Option.map_some, Option.getD_some]
    cases hb : s.brews[i] with
    | none => rfl
    | some b =>
      rw [hb, Option.any_some, beq_iff_eq] at named
      simp only [Option.map_some, if_pos named]

/-! ### A sample reaches a RUNNING sequencer (R30, R76, R103) -/

/-- The Boil Unit with nothing to offer changes no more than its own record. -/
theorem boilPump_idle (h : s.boil.outstanding = true ∨ s.boil.sendQueue = []) :
    ∃ b, boilPump s = { s with boil := b } := by
  unfold boilPump pumpSend
  split
  · exact ⟨s.boil, rfl⟩
  · rename_i free
    have empty : s.boil.sendQueue = [] := by
      obtain busy | empty := h
      · exact absurd (.inr busy) free
      · exact empty
    simp only [empty]
    exact ⟨_, rfl⟩

/-- The state in which a sample is worked: the causes noted, and the Boil Unit's record as it may have become. -/
def workState (v : Vessel) (b : BoilUnit) (s : State) : State := { causesNoted v s with boil := b }

theorem pvSample_running (running : (s.seqs.get v).state = .running) (none : (causesNow s v).any = false)
    (sends : v = .kettle → s.boil.outstanding = true ∨ s.boil.sendQueue = []) :
    ∃ b, pvSample v r s = workSample v (entryOf s r) (workState v b s) := by
  have state : ((causesNoted v s).seqs.get v).state = .running :=
    (congrArg Seat.state (causesNoted_seat v s)).trans running
  have noted : syncCauses v s = causesNoted v s := by
    rw [syncCauses_eq, show (s.seat v).state = .running from running]
    simp only [none, Bool.false_eq_true, if_false]
  have pumped : ∃ b, (if v = .kettle then boilPump (causesNoted v s) else causesNoted v s) = workState v b s := by
    split
    · rename_i kettle
      subst kettle
      exact boilPump_idle (sends rfl)
    · exact ⟨s.boil, rfl⟩
  obtain ⟨b, pumped⟩ := pumped
  refine ⟨b, ?_⟩
  unfold pvSample
  simp only [noted, pumped]
  exact if_pos state

/-! ### What the work has changed -/

/-- From `s` to `t` a sequencer's record has become `f` of it; the loop, the slots and the vessels stay, and so does all
outside the brewing blocks. -/
structure Worked (v : Vessel) (f : Sequencer → Sequencer) (s t : State) : Prop where
  seqs    : t.seqs = (withSeq v f s).seqs
  loop    : t.loop = s.loop
  outer   : t.outer = s.outer
  slots   : t.slots = s.slots
  vessels : t.vessels = s.vessels

theorem Worked.withSeq (h : Worked v f s t) (g : Sequencer → Sequencer) :
    Worked v (fun q => g (f q)) s (Machine.withSeq v g t) :=
  ⟨withSeq_seqs_again h.seqs g, h.loop, h.outer, h.slots, h.vessels⟩

theorem Worked.withBrew (h : Worked v f s t) (n : Nat) (k : Brew → Brew) : Worked v f s (Machine.withBrew n k t) :=
  ⟨h.seqs, h.loop, h.outer, h.slots, h.vessels⟩

theorem Worked.get (h : Worked v f s t) : t.seqs.get v = f (s.seqs.get v) := by
  rw [h.seqs, withSeq_seqs, PerVessel.get_set_same]

theorem Worked.get_other (h : Worked v f s t) (hw : w ≠ v) : t.seqs.get w = s.seqs.get w := by
  rw [h.seqs, withSeq_seqs, PerVessel.get_set_other _ _ hw]

/-! The records that the work makes of a sequencer's, one for each of its steps. -/

def Sequencer.caused (c : Causes) (q : Sequencer) : Sequencer := { q with causes := c }
def Sequencer.based (q : Sequencer) : Sequencer := { q with dtBase := true }
def Sequencer.rested (st : StepRow) (value : Int) (gain : Nat) (q : Sequencer) : Sequencer :=
  { q with restClock := q.restClock + gain, onTemperature := q.onTemperature || within st value }
def Sequencer.aimed (move : Int × Nat) (q : Sequencer) : Sequencer :=
  { q with setpoint := some move.1, rampRemainder := move.2 }
def Sequencer.heated (row : VesselRow) (setpoint value : Int) (dt : Nat) (q : Sequencer) : Sequencer :=
  { q with integral := (piDemand row.kp row.ki setpoint value q.integral dt).1 }

theorem workState_worked (v : Vessel) (b : BoilUnit) (s : State) :
    Worked v (Sequencer.caused (causesNow s v)) s (workState v b s) := ⟨rfl, rfl, rfl, rfl, rfl⟩

/-- The work keeps a sequencer's state and place, and what its last demand left. -/
def WorkNoted (f : Sequencer → Sequencer) : Prop :=
  ∀ q, f q = { q with
    causes := (f q).causes, dtBase := true, restClock := (f q).restClock, onTemperature := (f q).onTemperature
    setpoint := (f q).setpoint, rampRemainder := (f q).rampRemainder, integral := (f q).integral }

theorem Worked.seat (h : Worked v f s t) (hf : WorkNoted f) (w : Vessel) : (t.seat w).state = (s.seat w).state
    ∧ (t.seat w).position = (s.seat w).position ∧ (t.seat w).list = (s.seat w).list
    ∧ (t.seat w).rule = (s.seat w).rule := by
  have rule : (t.seat w).rule = (s.seat w).rule := by
    show (t.vessels.get w).ruled = (s.vessels.get w).ruled
    rw [h.vessels]
  have same : (t.seqs.get w).state = (s.seqs.get w).state ∧ (t.seqs.get w).position = (s.seqs.get w).position
      ∧ (t.seqs.get w).list = (s.seqs.get w).list := by
    by_cases e : w = v
    · subst e
      rw [h.get, hf]
      exact ⟨rfl, rfl, rfl⟩
    · rw [h.get_other e]
      exact ⟨rfl, rfl, rfl⟩
  exact ⟨same.1, same.2.1, same.2.2, rule⟩

theorem Worked.standsAs (h : Worked v f s t) (hf : WorkNoted f) : StandsAs s t :=
  ⟨h.outer, h.slots, fun w => (h.seat hf w).1, fun w => (h.seat hf w).2.1, fun w => (h.seat hf w).2.2.2⟩

theorem heatDemand_seat (v : Vessel) (d : Nat) (s : State) : (heatDemand v d s).seat = s.seat := by
  unfold heatDemand
  simp only
  split
  · exact (offerHeat_seat ..).trans withSeq_seat
  · rfl

theorem StandsAs.heatDemand (h : StandsAs s t) (d : Nat) : StandsAs s (Machine.heatDemand v d t) := by
  have seat := heatDemand_seat v d t
  have still := heatDemand_still v d t
  exact ⟨(outer_of_still still).trans h.outer, (slots_of_still still).trans h.slots, fun w => by rw [seat, h.state],
    fun w => by rw [seat, h.position], fun w => by rw [seat, h.rule]⟩

/-! ### The work of a step (R86, R87) -/

/-- What a HOLD's rest clock gains from a sample (R87). -/
def restGain (st : StepRow) (previous : Option Int) (dt : Nat) : Nat := if previous.any (within st) then dt else 0

/-- A HOLD's sample noted by the sequencer (R87). -/
def restNoted (v : Vessel) (st : StepRow) (value : Int) (gain : Nat) (s : State) : State :=
  withSeq v (Sequencer.rested st value gain) s

/-- A HOLD's sample in the mash record of the mashing vessel's occupant (R87). -/
def mashNoted (v : Vessel) (st : StepRow) (value : Int) (gain : Nat) (s : State) : State :=
  match v, occupantOf s v with
  | .mash, some n => withBrew n (fun b => { b with mash := b.mash.map (MashRecord.hold gain
      (if (s.seqs.get v).onTemperature then (value - st.target).natAbs else 0)) }) s
  | _, _ => s

theorem holdSample_eq (value : Int) (previous : Option Int) (dt : Nat) :
    holdSample v st value previous dt s =
      let m := mashNoted v st value (restGain st previous dt) (restNoted v st value (restGain st previous dt) s)
      let h := heatCompute v st.target value dt m
      offerAndComplete v h.1 (decide (st.hold * 1000 ≤ (h.2.seqs.get v).restClock)) h.2 := by
  have on : ((restNoted v st value (restGain st previous dt) s).seqs.get v).onTemperature
      = ((s.seqs.get v).onTemperature || within st value) := by
    rw [restNoted, withSeq_seqs, PerVessel.get_set_same, Sequencer.rested]
  unfold mashNoted
  rw [on]
  rfl

theorem Worked.mashNoted (h : Worked v f s t) (st : StepRow) (value : Int) (gain : Nat) :
    Worked v f s (Machine.mashNoted v st value gain t) := by
  unfold Machine.mashNoted
  split
  · exact h.withBrew ..
  · exact h

theorem Worked.heat (h : Worked v f s t) (setpoint value : Int) (dt : Nat) :
    (heatCompute v setpoint value dt t).1
        = (piDemand (vesselRow s.tables v).kp (vesselRow s.tables v).ki setpoint value (f (s.seqs.get v)).integral dt).2
      ∧ Worked v (fun q => Sequencer.heated (vesselRow s.tables v) setpoint value dt (f q)) s
        (heatCompute v setpoint value dt t).2 := by
  rw [← h.get, ← tables_of_outer h.outer]
  exact ⟨rfl, h.withSeq (Sequencer.heated (vesselRow t.tables v) setpoint value dt)⟩

/-- The work of a sample begins with the time it accrues, and the dt base is present then (R85). -/
def baseNoted (v : Vessel) (s : State) : State := withSeq v Sequencer.based s

section
variable {e : PointEntry} {now : Reading} (hst : currentStep s v = some st) (hc : e.current = some now)
  (hot : heated v = true)
include hst hc hot

theorem workSample_hold (kind : st.kind = .hold) : workSample v e s
    = holdSample v st now.value (e.previous.map Reading.value)
        (if (s.seqs.get v).dtBase then e.interval.getD 0 else 0) (baseNoted v s) := by
  unfold workSample
  simp only [hst, hc, kind, hot, if_true]
  rfl

theorem workSample_ramp (kind : st.kind = .ramp) : workSample v e s
    = rampSample v st now.value (if (s.seqs.get v).dtBase then e.interval.getD 0 else 0) (baseNoted v s) := by
  unfold workSample
  simp only [hst, hc, kind, hot, if_true]
  rfl

end

/-! ### The offer and the completion (R92, R93) -/

theorem offerAndComplete_goesOn (d : Nat) : offerAndComplete v d false s = heatDemand v d s := rfl

/-- A sample that completes the step offers its demand before that, or not at all. -/
theorem offerAndComplete_done (v : Vessel) (d : Nat) (s : State) :
    offerAndComplete v d true s = completeStep v s
      ∨ offerAndComplete v d true s = completeStep v (heatDemand v d s) := by
  unfold offerAndComplete
  simp only [Bool.true_and, if_true]
  split
  · exact .inl rfl
  · exact .inr rfl

theorem heatDemand_rests (v : Vessel) (d : Nat) (s : State) : (heatDemand v d s).rests = s.rests :=
  rests_of_brews (brews_of_still (heatDemand_still ..))

theorem completeStep_rests (v : Vessel) (s : State) : (completeStep v s).rests = s.rests :=
  (completeStep_moves v s).rests.trans (finishStep_moves v s).rests

theorem offerAndComplete_rests (v : Vessel) (d : Nat) (done : Bool) (s : State) :
    (offerAndComplete v d done s).rests = s.rests := by
  cases done with
  | false => exact heatDemand_rests ..
  | true =>
    obtain e | e := offerAndComplete_done v d s <;> rw [e, completeStep_rests]
    exact heatDemand_rests ..

/-- A mash record is read from the brews' rests. -/
theorem mash_of_rests {b : Brew} {m : MashRecord} (h : t.rests = s.rests) (hb : brew? s n = some b)
    (hm : b.mash = some m) :
    ∃ b' m', brew? t n = some b' ∧ b'.mash = some m' ∧ m'.rest = m.rest ∧ m'.deviation = m.deviation := by
  have same : (brew? t n).map Brew.rested = (brew? s n).map Brew.rested := by
    rw [brew?_rested, brew?_rested, h]
  rw [hb, Option.map_some, Option.map_eq_some_iff] at same
  obtain ⟨b', hb', same⟩ := same
  unfold Brew.rested at same
  rw [Prod.mk.injEq, hm, Option.map_some, Option.map_eq_some_iff] at same
  obtain ⟨_, m', hm', same⟩ := same
  rw [Prod.mk.injEq] at same
  exact ⟨b', m', hb', hm', same⟩

/-- The offer changes no more of a sequencer's record than what concerns its last demand. -/
def DemandNoted (g : Sequencer → Sequencer) : Prop :=
  ∀ q, g q = { q with
    zeroForced := (g q).zeroForced, lastDemand := (g q).lastDemand, unsent := (g q).unsent
    refreshTimer := (g q).refreshTimer }

theorem OfferNoted.demandNoted {d : Nat} (h : OfferNoted d f) : DemandNoted f := by
  intro q
  have eq := h q
  rw [eq]

section
variable {i : SampleItem} {x : Int} {clamped : Bool} {hp : Nat} {p : PointRow}

/-- What becomes of the demand of a sample's work (R93, R94). -/
theorem Worked.demandOffered (h : Worked v f (s.sampled i r x clamped) t) (hf : WorkNoted f)
    (hr : heatRow? s.tables v = some hp) (hpt : point? s.tables hp = some p) (d : Nat) :
    DemandOffered v d hp p s (heatDemand v d t)
      ∧ ∃ g, DemandNoted g ∧ (heatDemand v d t).seqs = (Machine.withSeq v (fun q => g (f q)) s).seqs := by
  have tables : t.tables = s.tables := (tables_of_outer h.outer).trans rfl
  have last : (t.seqs.get v).zeroForced = (s.seqs.get v).zeroForced
      ∧ (t.seqs.get v).lastDemand = (s.seqs.get v).lastDemand ∧ (t.seqs.get v).unsent = (s.seqs.get v).unsent := by
    rw [h.get, hf]
    exact ⟨rfl, rfl, rfl⟩
  obtain ⟨zero, demand, unsent⟩ := last
  have offers : OffersHeat t v d ↔ (s.seqs.get v).zeroForced = true
      ∨ (vesselRow s.tables v).deadband ≤ max d (s.seqs.get v).lastDemand - min d (s.seqs.get v).lastDemand
      ∨ ∃ o ∈ (s.seqs.get v).unsent, o.row = hp := by
    unfold OffersHeat
    rw [zero, demand, unsent, tables, hr]
    simp only [Option.some.injEq, exists_eq_left']
  by_cases c : OffersHeat t v d
  · obtain ⟨g, noted, seqs, loop⟩ := heatDemand_offers c (by rw [tables]; exact hr) (by rw [tables]; exact hpt)
    have record : (heatDemand v d t).seqs.get v = g (t.seqs.get v) := by
      rw [seqs, withSeq_seqs, PerVessel.get_set_same]
    have fairness : t.agent.config.fairness = s.agent.config.fairness := by
      show t.outer.agent.config.fairness = s.agent.config.fairness
      rw [h.outer]
      rfl
    have alike : LoopsAlike s.heard t := ⟨h.loop, (loopTime_of_outer h.outer).trans rfl, fairness⟩
    have station : driveFrame t p d = driveFrame s p d := by
      have address : t.stationAddress = s.stationAddress := by
        show t.outer.stationAddress = s.stationAddress
        rw [h.outer]
        rfl
      unfold driveFrame
      rw [address]
    refine ⟨⟨?_, fun _ => ⟨?_, ?_⟩, fun none => absurd (offers.1 c) none⟩, g, noted.demandNoted, ?_⟩
    · rw [record, noted]
    · rw [record, noted]
    · rw [loop, alike.offer, station]
      rfl
    · rw [seqs]
      exact withSeq_seqs_again h.seqs g
  · have kept := heatDemand_keeps c
    rw [kept]
    have none := mt offers.2 c
    refine ⟨⟨?_, fun yes => absurd yes none, fun _ => ⟨demand, h.loop⟩⟩, id, fun _ => rfl, h.seqs⟩
    rw [zero, Bool.eq_false_iff]
    exact fun forced => none (.inl forced)

/-! ### A sample of the temperature point (R30) -/

variable {fr : Frame} (a : Samples fr i r x clamped s) (k : Heating v st r s)
include a k

omit a in
theorem Heating.pv : vesselValid s.tables v = true ∧ (vesselRow s.tables v).pv = r := by
  have named := (k.delivers.namesPv_iff v).2 (by simp)
  unfold namesPv at named
  rw [Bool.and_eq_true, beq_iff_eq] at named
  exact named

/-- With a fresh value in AUTO, the loop up and no warning, no cause holds (R76). -/
theorem Heating.noCause : (causesNow (s.sampled i r x clamped) v).any = false := by
  refine causesNow_any_eq_false ?_
  rintro (hand | ⟨_, stale⟩ | link | power)
  · exact absurd (k.auto.symm.trans hand) (by decide)
  · rw [show (vesselRow (s.sampled i r x clamped).tables v).pv = r from k.pv.2,
      freshPoint_sampled x clamped k.delivers.entry a.quality] at stale
    cases stale
  · exact absurd (a.link.symm.trans link) (by decide)
  · exact absurd (k.power.symm.trans power) (by decide)

/-- The sample is worked with its value, its former reading and the time since (R85). -/
theorem Heating.worked : ∃ b, deliverSample r (s.sampled i r x clamped)
    = workSample v (entryOf (s.sampled i r x clamped) r) (workState v b (s.sampled i r x clamped)) := by
  rw [(k.delivers.sampled i x clamped).pvSample]
  exact pvSample_running k.running (k.noCause a) k.sends

omit a in
theorem Heating.current (b : BoilUnit) : currentStep (workState v b (s.sampled i r x clamped)) v = some st := by
  have seat := causesNoted_seat v (s.sampled i r x clamped)
  rw [← k.step]
  refine currentStep_congr rfl ?_ ?_
  · show ((causesNoted v (s.sampled i r x clamped)).seat v).position = _
    rw [seat]
    rfl
  · show ((causesNoted v (s.sampled i r x clamped)).seat v).list = _
    rw [seat]
    rfl

omit a in
theorem Heating.time (b : BoilUnit) :
    (if ((workState v b (s.sampled i r x clamped)).seqs.get v).dtBase
      then (entryOf (s.sampled i r x clamped) r).interval.getD 0 else 0)
      = sampleTime (s.seqs.get v) (formerReading s r) s.loopTime := by
  have base : ((workState v b (s.sampled i r x clamped)).seqs.get v).dtBase = (s.seqs.get v).dtBase := by
    rw [(workState_worked v b _).get]
    rfl
  rw [base, entryOf_sampled x clamped k.delivers.entry]
  unfold sampleTime PointEntry.interval
  cases formerReading s r with
  | none => simp
  | some y => rfl

end

end Sys2Proof.Machine
end

section
/-! What an accepted sample of the temperature point does in a HOLD or a RAMP (R85 to R87, R92, R93). -/

namespace Sys2Proof.Machine

variable {s t : State} {v : Vessel} {r : Nat} {st : StepRow} {f : Sequencer → Sequencer}
  {i : SampleItem} {x : Int} {clamped : Bool} {hp : Nat} {p : PointRow} {fr : Frame}

/-! ### A step that goes on, and a step that completes -/

/-- A sample that does not complete the step is worked, and its demand offered or not. -/
theorem Worked.goesOn {d : Nat} {k : Sequencer → Prop} (h : Worked v f (s.sampled i r x clamped) t) (hf : WorkNoted f)
    (a : Samples fr i r x clamped s) (heating : Heating v st r s) (hr : heatRow? s.tables v = some hp)
    (hpt : point? s.tables hp = some p)
    (run : deliverSample r (s.sampled i r x clamped) = offerAndComplete v d false t)
    (hk : ∀ g, DemandNoted g → k (g (f (s.seqs.get v)))) :
    ∃ u, exec (.frameComplete fr.bytes) s = .next (settle (settle u)) ∧ DemandOffered v d hp p s u
      ∧ k (u.seqs.get v) ∧ (u.seqs.get v).dtBase = true ∧ (u.seqs.get v).state = .running
      ∧ (u.seqs.get v).position = (s.seqs.get v).position ∧ ∀ w, w ≠ v → u.seqs.get w = s.seqs.get w := by
  obtain ⟨offered, g, noted, seqs⟩ := h.demandOffered hf hr hpt d
  have record : (heatDemand v d t).seqs.get v = g (f (s.seqs.get v)) := by
    rw [seqs, withSeq_seqs, PerVessel.get_set_same]
  have exec := a.exec
  rw [run, offerAndComplete_goesOn] at exec
  refine ⟨_, exec, offered, by rw [record]; exact hk g noted, ?_, ?_, ?_, fun w hw => ?_⟩
  · rw [record, noted, hf]
  · rw [record, noted, hf]
    exact heating.running
  · rw [record, noted, hf]
  · rw [seqs, withSeq_seqs, PerVessel.get_set_other _ _ hw]

/-- A sample that completes the step begins the next one, if there is one. -/
theorem Worked.completes {d pos recipe : Nat} (h : Worked v f (s.sampled i r x clamped) t) (hf : WorkNoted f)
    (a : Samples fr i r x clamped s)
    (run : deliverSample r (s.sampled i r x clamped) = offerAndComplete v d true t)
    (position : (s.seqs.get v).position = some pos) (list : (s.seqs.get v).list = some recipe) :
    ∃ u, exec (.frameComplete fr.bytes) s = .next u ∧ StepsOn v recipe pos (s.sampled i r x clamped) u := by
  have stands := h.standsAs hf
  have heldList : (t.seat v).list = some recipe := (h.seat hf v).2.2.1.trans list
  have steps {u : State} (hu : StandsAs (s.sampled i r x clamped) u) (hl : (u.seat v).list = some recipe) :
      StepsOn v recipe pos (s.sampled i r x clamped) (completeStep v u) :=
    (completeStep_stepsOn ((hu.position v).trans position) hl).of_standsAs hu
  refine ⟨_, a.exec, StepsOn.of_works ?_ ((settle_works _).trans (settle_works _))⟩
  rw [run]
  obtain e | e := offerAndComplete_done v d t <;> rw [e]
  · exact steps stands heldList
  · exact steps (stands.heatDemand d) (by rw [heatDemand_seat]; exact heldList)

/-! ### HOLD (R87) -/

/-- The former value was within the step's tolerance. -/
theorem restGain_eq (st : StepRow) (former : Option Reading) (dt : Nat) [Decidable (∃ y, former = some y
      ∧ (y.value - st.target).natAbs ≤ st.tolerance)] :
    restGain st (former.map Reading.value) dt
      = if ∃ y, former = some y ∧ (y.value - st.target).natAbs ≤ st.tolerance then dt else 0 := by
  have near : (former.map Reading.value).any (within st) = true
      ↔ ∃ y, former = some y ∧ (y.value - st.target).natAbs ≤ st.tolerance := by
    cases former with
    | none => simp
    | some y => simp [within]
  unfold restGain
  simp only [near]

theorem mashNoted_occupied {n : Nat} {on : Bool} (st : StepRow) (value : Int) (gain : Nat)
    (ho : s.vessels.mash.occupant = some n) (h : (s.seqs.get .mash).onTemperature = on) :
    mashNoted .mash st value gain s = withBrew n (fun b => { b with
      mash := b.mash.map (MashRecord.hold gain (if on then (value - st.target).natAbs else 0)) }) s := by
  unfold mashNoted
  rw [show occupantOf s .mash = some n from ho, h]

/-- The heating of a HOLD's sample: the rest clock, the heating computation, and the mash record. -/
theorem Heating.hold (a : Samples fr i r x clamped s) (k : Heating v st r s) (kind : st.kind = .hold) :
    let q := s.seqs.get v
    let dt := sampleTime q (formerReading s r) s.loopTime
    let gain := restGain st ((formerReading s r).map Reading.value) dt
    let h := piDemand (vesselRow s.tables v).kp (vesselRow s.tables v).ki st.target x q.integral dt
    ∃ f t, WorkNoted f ∧ Worked v f (s.sampled i r x clamped) t
      ∧ deliverSample r (s.sampled i r x clamped)
          = offerAndComplete v h.2 (decide (st.hold * 1000 ≤ q.restClock + gain)) t
      ∧ (f q).restClock = q.restClock + gain ∧ (f q).integral = h.1
      ∧ (f q).onTemperature = (q.onTemperature || within st x)
      ∧ ∀ n, v = .mash → s.vessels.mash.occupant = some n → brew? t n = (brew? s n).map fun b => { b with
          mash := b.mash.map (MashRecord.hold gain
            (if q.onTemperature || within st x then (x - st.target).natAbs else 0)) } := by
  intro q dt gain h
  obtain ⟨b, run⟩ := k.worked a
  have entry := entryOf_sampled (i := i) x clamped k.delivers.entry
  have current : (entryOf (s.sampled i r x clamped) r).current = some ⟨x, s.loopTime⟩ := by rw [entry]
  have previous : (entryOf (s.sampled i r x clamped) r).previous = formerReading s r := by rw [entry]
  rw [workSample_hold (k.current b) current k.heated kind, previous, k.time b, holdSample_eq] at run
  have noted := ((workState_worked v b (s.sampled i r x clamped)).withSeq Sequencer.based).withSeq
    (Sequencer.rested st x gain)
  have on : ((restNoted v st x gain (baseNoted v (workState v b (s.sampled i r x clamped)))).seqs.get v).onTemperature
      = (q.onTemperature || within st x) := congrArg Sequencer.onTemperature noted.get
  have mash := noted.mashNoted st x gain
  obtain ⟨demand, heated⟩ := mash.heat st.target x dt
  refine ⟨_, _, fun _ => rfl, heated, ?_, rfl, rfl, rfl, fun n hv ho => ?_⟩
  · have rest : _ = q.restClock + gain := congrArg Sequencer.restClock heated.get
    rw [← rest, show h.2 = _ from demand.symm]
    exact run
  · subst hv
    have changed := mashNoted_occupied (n := n)
      (s := restNoted .mash st x gain (baseNoted .mash (workState .mash b (s.sampled i r x clamped)))) st x gain ho on
    have found := brew?_withBrew (n := n) (s := restNoted .mash st x gain (baseNoted .mash (workState .mash b
      (s.sampled i r x clamped)))) (f := fun b => { b with mash := b.mash.map (MashRecord.hold gain
        (if q.onTemperature || within st x then (x - st.target).natAbs else 0)) }) fun _ => rfl
    rw [← changed] at found
    exact found

/-! ### RAMP (R86) -/

/-- The heating of a RAMP's sample: the setpoint, and the heating computation. -/
theorem Heating.ramp (a : Samples fr i r x clamped s) (k : Heating v st r s) (kind : st.kind = .ramp) :
    let q := s.seqs.get v
    let dt := sampleTime q (formerReading s r) s.loopTime
    let move := rampMove q.setpoint q.rampRemainder st.rate dt st.target x
    let h := piDemand (vesselRow s.tables v).kp (vesselRow s.tables v).ki move.1 x q.integral dt
    ∃ f t, WorkNoted f ∧ Worked v f (s.sampled i r x clamped) t
      ∧ deliverSample r (s.sampled i r x clamped)
          = offerAndComplete v h.2 (move.1 == st.target && within st x) t
      ∧ (f q).setpoint = some move.1 ∧ (f q).rampRemainder = move.2 ∧ (f q).integral = h.1 := by
  intro q dt move h
  obtain ⟨b, run⟩ := k.worked a
  have entry := entryOf_sampled (i := i) x clamped k.delivers.entry
  have current : (entryOf (s.sampled i r x clamped) r).current = some ⟨x, s.loopTime⟩ := by rw [entry]
  have based := (workState_worked v b (s.sampled i r x clamped)).withSeq Sequencer.based
  have move_eq : move = rampMove ((baseNoted v (workState v b (s.sampled i r x clamped))).seqs.get v).setpoint
      ((baseNoted v (workState v b (s.sampled i r x clamped))).seqs.get v).rampRemainder st.rate dt st.target x := by
    rw [show (baseNoted v (workState v b (s.sampled i r x clamped))).seqs.get v = _ from based.get]
    rfl
  rw [workSample_ramp (k.current b) current k.heated kind, k.time b, rampSample_eq, ← move_eq] at run
  obtain ⟨demand, heated⟩ := (based.withSeq (Sequencer.aimed move)).heat move.1 x dt
  refine ⟨_, _, fun _ => rfl, heated, ?_, rfl, rfl, rfl⟩
  rw [show h.2 = _ from demand.symm]
  exact run

/-! ### The statement -/

/-- The blocks settle without touching the mash records. -/
theorem settle_rests (s : State) : (settle s).rests = s.rests := congrArg Prod.snd (settle_ledger s)

theorem within_iff (st : StepRow) (x : Int) : within st x = true ↔ (x - st.target).natAbs ≤ st.tolerance :=
  decide_eq_true_iff

/-- Settles O40: the arithmetic of R86 and R92, and a sample worked in a HOLD and in a RAMP. -/
theorem heatingLoopAndRamp : Obligations.HeatingLoopAndRamp := by
  refine ⟨piDemand_bounds, rampMove_bounds, fun fr i r x clamped v st hp p s a k hr hpt => ?_⟩
  intro c q row former dt near goesOn completes
  refine ⟨fun kind => ?_, fun kind => ?_⟩
  · intro add rest on h
    obtain ⟨f, t, hf, hw, run, restClock, integral, onTemperature, mash⟩ := k.hold a kind
    have gain : restGain st (former.map Reading.value) dt = add := restGain_eq st former dt
    rw [gain] at run restClock mash
    have temperate : (q.onTemperature || within st x) = true ↔ on := by
      rw [Bool.or_eq_true, within_iff]
    refine ⟨fun more => ?_, fun reached pos recipe position list => ?_, fun n b m mashing occupant brew record => ?_⟩
    · rw [decide_eq_false (show ¬st.hold * 1000 ≤ q.restClock + add by omega)] at run
      refine hw.goesOn (k := fun k => k.restClock = rest ∧ k.integral = h.1 ∧ (k.onTemperature = true ↔ on))
        hf a k hr hpt
        run fun g noted => ?_
      rw [noted]
      refine ⟨restClock, integral, ?_⟩
      rw [← temperate, ← onTemperature]
    · rw [decide_eq_true (show st.hold * 1000 ≤ q.restClock + add from reached)] at run
      exact hw.completes hf a run position list
    · have changed := mash n mashing occupant
      rw [brew, Option.map_some] at changed
      have rests : (settle (settle (deliverSample r (s.sampled i r x clamped)))).rests = t.rests := by
        rw [settle_rests, settle_rests, run, offerAndComplete_rests]
      obtain ⟨b', m', found, held, rested, deviation⟩ := mash_of_rests rests changed
        (show Option.map _ b.mash = some _ by rw [record]; rfl)
      refine ⟨_, b', m', a.exec, found, held, rested, deviation.trans ?_⟩
      show max m.deviation (if (q.onTemperature || within st x) = true then (x - st.target).natAbs else 0) = _
      by_cases e : on
      · rw [if_pos (temperate.2 e), if_pos e]
      · rw [if_neg fun y => e (temperate.1 y), if_neg e, Nat.max_zero]
  · intro move h
    obtain ⟨f, t, hf, hw, run, setpoint, remainder, integral⟩ := k.ramp a kind
    have done : (move.1 == st.target && within st x) = true ↔ move.1 = st.target ∧ near x := by
      rw [Bool.and_eq_true, beq_iff_eq, within_iff]
    refine ⟨fun more => ?_, fun reached pos recipe position list => ?_⟩
    · rw [Bool.eq_false_iff.2 fun y => more (done.1 y)] at run
      refine hw.goesOn (k := fun k => k.setpoint = some move.1 ∧ k.rampRemainder = move.2 ∧ k.integral = h.1) hf a k hr
        hpt run fun g noted => ?_
      rw [noted]
      exact ⟨setpoint, remainder, integral⟩
    · rw [done.2 reached] at run
      exact hw.completes hf a run position list

end Sys2Proof.Machine
end

section
/-! The drive guard's laws (R43 to R45): the lowest free slot, the decision, and what becomes of a passing DRIVE. -/

namespace Sys2Proof.Machine

variable {s t : State} {f : Frame} {v : Vessel} {n r : Nat}

/-! ### The lowest free slot (R45) -/

theorem freeSlotNumber_eq_some_iff :
    freeSlotNumber s = some n ↔ n < 4 ∧ slotHold s n = none ∧ ∀ m < n, slotHold s m ≠ none := by
  show (List.range 4).find? _ = some n ↔ _
  rw [List.find?_range_eq_some]
  simp [Option.ne_none_iff_isSome, and_left_comm]

theorem freeSlotNumber_eq_none_iff : freeSlotNumber s = none ↔ ∀ n < 4, slotHold s n ≠ none := by
  show (List.range 4).find? _ = none ↔ _
  rw [List.find?_range_eq_none]
  simp [Option.ne_none_iff_isSome]

theorem holdFrame_free (free : freeSlotNumber s = some n) :
    holdFrame f v r s = raise .driveHeld (.vessel v) (s.vessels.get v).occupant (.num n)
      { s with slots := s.slots.set n (some
        { frame := f, point := r, vessel := v, step := (s.seqs.get v).position, time := s.loopTime }) } := by
  unfold holdFrame
  rw [free]
  rfl

theorem holdFrame_full (full : freeSlotNumber s = none) :
    holdFrame f v r s = raise .guardFull (.vessel v) (s.vessels.get v).occupant (.num r) s := by
  unfold holdFrame
  rw [full]
  rfl

/-! ### The decision (R43, R44) -/

/-- The owning vessel of a DRIVE's point, if it has one (R43, R44). -/
def driveVessel (s : State) (f : Frame) : Option Vessel :=
  (driveRow s f).bind fun r => owningVessel (pointRow s.tables r).binding

/-- A DRIVE's point is an owned drive point (R44). -/
def driveGuarded (s : State) (f : Frame) : Bool :=
  (driveRow s f).any fun r => (pointRow s.tables r).kind.isDrive && (pointRow s.tables r).owned

theorem driveOrigin_eq_iff {b : Byte} : driveOrigin f = b.toNat ↔ f.payload.getD 1 0 = b := BitVec.toNat_inj

/-- An OWN origin is forged, before any other test (R43). -/
theorem guardDecision_forged (own : driveOrigin f = 0) : guardDecision s f = .forged (driveVessel s f) := if_pos own

theorem guardDecision_unguarded (other : driveOrigin f ≠ 0) (h : driveGuarded s f = false ∨ driveVessel s f = none) :
    guardDecision s f = .forward := by
  unfold driveGuarded driveVessel at h
  unfold guardDecision
  simp only [if_neg other]
  cases hr : driveRow s f with
  | none => rfl
  | some r =>
    rw [hr] at h
    simp only
    split
    · rename_i guarded
      have unowned : owningVessel (pointRow s.tables r).binding = none :=
        h.resolve_left fun free => Bool.noConfusion (free.symm.trans guarded)
      rw [unowned]
    · rfl

/-- On a guarded point the vessel's authority decides, then the origin (R44). -/
theorem guardDecision_guarded (other : driveOrigin f ≠ 0) (row : driveRow s f = some r)
    (guarded : driveGuarded s f = true) (vessel : driveVessel s f = some v) :
    guardDecision s f = if (s.vessels.get v).authority = .hand then .forward
      else if driveOrigin f = 2 then .refuse v r else .hold v r := by
  unfold driveGuarded at guarded
  unfold driveVessel at vessel
  rw [row] at guarded vessel
  have drives : ((pointRow s.tables r).kind.isDrive && (pointRow s.tables r).owned) = true := guarded
  have owner : owningVessel (pointRow s.tables r).binding = some v := vessel
  unfold guardDecision
  simp only [if_neg other, row, drives, owner, if_true]

/-! ### A passing DRIVE (R45) -/

/-- A good DRIVE that reaches the guard (R8, R43). -/
structure PassingDrive (f : Frame) (s : State) : Prop extends Listening s where
  good   : f.Good
  kind   : f.kind = 0x02
  source : f.source ≠ s.stationAddress
  dest   : f.dest ≠ s.stationAddress
  hop    : f.hop.toNat < 64

theorem forwardFrame_drive (kind : f.kind = 0x02) : forwardFrame f s = guardFrame f s := by
  unfold forwardFrame
  rw [kind, if_neg (by decide), if_neg (by decide), if_pos (show (0x02 : Byte) = kindDrive from rfl)]

/-- A DRIVE that the guard stops is told of in an event, and leaves what the decision says. -/
theorem PassingDrive.leaves {k : EventKind} {u : Subject} {b : Option Nat} {x : EventArg} (h : PassingDrive f s)
    (run : guardFrame f s.heard = raise k u b x t) (tells : t.tells = s.tells) :
    Leaves (.frameComplete f.bytes) s (raise k u b x t) := by
  have arrives := exec_forwarded h.toListening h.good h.source h.hop h.dest
  rw [forwardFrame_drive h.kind, run] at arrives
  exact leaves_settled arrives ((raise_tells ..).trans (tells.trans h.tells))

theorem guardFrame_forged (h : guardDecision s f = .forged (some v)) :
    guardFrame f s = raiseVessel .forgedOrigin v (.num f.source.toNat) s := by
  simp only [guardFrame, h]

theorem guardFrame_forged_unowned (h : guardDecision s f = .forged none) :
    guardFrame f s = raise .forgedOrigin .none none (.num f.source.toNat) s := by
  simp only [guardFrame, h]

theorem guardFrame_refuse (h : guardDecision s f = .refuse v r) :
    guardFrame f s = raiseVessel .panelRefused v (.num r) s := by
  simp only [guardFrame, h]

theorem guardFrame_hold (h : guardDecision s f = .hold v r) : guardFrame f s = holdFrame f v r s := by
  simp only [guardFrame, h]

/-- Settles O23: the origin, then the point, then the vessel's authority. -/
theorem guardDecidesDrives : Obligations.GuardDecidesDrives := by
  intro f s l g kind hs hd hh c h origin vessel guarded source
  have passing : PassingDrive f s := ⟨l, g, kind, hs, hd, hh⟩
  have vesselIs : vessel = driveVessel s f := rfl
  have originIs (b : Byte) : driveOrigin f = b.toNat ↔ origin = b := driveOrigin_eq_iff
  refine ⟨fun own unowned => ?_, fun v owner own => ?_, fun other free => ?_, fun v r owner row other owned => ?_⟩
  · have forged := guardDecision_forged (s := s) ((originIs 0).2 own)
    rw [← vesselIs, unowned] at forged
    exact passing.leaves (guardFrame_forged_unowned (s := s.heard) forged) rfl
  · have forged := guardDecision_forged (s := s) ((originIs 0).2 own)
    rw [← vesselIs, owner] at forged
    exact passing.leaves (guardFrame_forged (s := s.heard) forged) rfl
  · exact guardDecision_unguarded (mt (originIs 0).1 other) free
  · intro brew
    have decided := guardDecision_guarded (s := s) (mt (originIs 0).1 other) row owned owner
    refine ⟨fun hand => decided.trans (if_pos hand), fun auto panel => ?_, fun auto supervisor => ?_⟩
    all_goals rw [if_neg (by rw [auto]; decide)] at decided
    · rw [if_pos (show driveOrigin f = 2 from (originIs 2).2 panel)] at decided
      exact passing.leaves (guardFrame_refuse (s := s.heard) decided) rfl
    · rw [if_neg (by rw [(originIs 1).2 supervisor]; decide)] at decided
      have held := guardFrame_hold (s := s.heard) decided
      refine ⟨fun n inside free least => passing.leaves ?_ rfl, fun full => passing.leaves ?_ rfl⟩
      · exact held.trans (holdFrame_free (s := s.heard) (freeSlotNumber_eq_some_iff.2 ⟨inside, free, least⟩))
      · exact held.trans (holdFrame_full (s := s.heard) (freeSlotNumber_eq_none_iff.2 full))

end Sys2Proof.Machine
end

section
/-! The hold slots emptied by request or by their timer (R46 to R48). -/

namespace Sys2Proof.Machine

variable {s t : State} {f : Frame} {o : Owner} {n : Nat} {h : Hold} {rq : Request}

/-! ### The offer of a held frame (R14 to R17, R103, R132) -/

/-- Any frame, offered with the port free and nothing waiting, begins at once (R17). -/
theorem offer_begins (f : Frame) (o : Owner) (idle : s.loop.port = .idle)
    (ha : s.loop.transit = [] ∧ s.loop.queue = []) :
    offer f o s = (.begun, beginInsertion { frame := f.sealed, entry := s.loopTime, owner := o } [] s) := by
  obtain ⟨transit, queue⟩ := ha
  have room : s.loop.queue.length < 32 := by rw [queue]; decide
  have unmatched : replaceDrive f.sealed o s.loop.queue = none := by rw [queue]; rfl
  unfold offer
  simp only [unmatched, if_pos room]
  unfold enterQueue
  exact if_pos ⟨idle, transit, queue⟩

/-- After an offer the port is busy. -/
theorem offer_busies (f : Frame) (o : Owner) (ha : s.loop.port = .idle → s.loop.transit = [] ∧ s.loop.queue = []) :
    (offer f o s).2.loop.port ≠ .idle := by
  by_cases idle : s.loop.port = .idle
  · rw [offer_begins f o idle (ha idle)]
    exact nofun
  · rw [offer_port f o idle]
    exact idle

/-- The frame replaced was in the queue (R15). -/
theorem replaceDrive_owner {l m : List Insertion} {old : Owner} (e : replaceDrive f o l = some (m, old)) :
    ∃ q ∈ l, q.owner = old := by
  induction l generalizing m with
  | nil => cases e
  | cons q l ih =>
    rw [replaceDrive] at e
    split at e
    · cases e
      exact ⟨q, by simp, rfl⟩
    · obtain ⟨⟨rest, owner⟩, found, same⟩ := Option.map_eq_some_iff.1 e
      cases same
      obtain ⟨p, hp, hold⟩ := ih found
      exact ⟨p, by simp [hp], hold⟩

/-- Only the Boil Unit and the Pitch Unit are told of their frames (R103, R132). -/
theorem tellLeft_untold (hb : o ≠ .boilUnit) (hp : ∀ k, o ≠ .pitchUnit k) (s : State) : tellLeft o s = s := by
  cases o with
  | boilUnit => exact absurd rfl hb
  | pitchUnit k => exact absurd rfl (hp k)
  | agent | guardUnit | sequencer | castMeter => rfl

/-- With no frame of the Boil Unit or the Pitch Unit waiting, an offer tells no block of anything. -/
theorem offer_untold (f : Frame) (o : Owner) (ha : s.loop.port = .idle → s.loop.transit = [] ∧ s.loop.queue = [])
    (hq : ∀ q ∈ s.loop.queue, q.owner ≠ .boilUnit ∧ ∀ k, q.owner ≠ .pitchUnit k) :
    (offer f o s).2.tells = s.tells := by
  by_cases idle : s.loop.port = .idle
  · rw [offer_begins f o idle (ha idle)]
    rfl
  · unfold offer
    simp only
    split
    · rename_i found
      obtain ⟨q, hm, rfl⟩ := replaceDrive_owner found
      obtain ⟨notBoil, notPitch⟩ := hq q hm
      rw [tellLeft_untold notBoil notPitch]
      rfl
    · split
      · rw [enterQueue_busy _ _ idle]
        rfl
      · split
        · split
          · rw [enterQueue_busy _ _ (by rw [latch_loop]; exact idle), latch_eq_latched]
            rfl
          · rfl
        · rfl

/-! ### The requests (R46, R47) -/

theorem serveRelease_asked (a : Asks rq (.release n) s) : serveRelease rq (taken s) = doRelease n rq (taken s) := by
  have carries : parseReq (taken s).stationAddress 20 rq.params = some (.release n) := a.carries
  simp only [serveRelease, carries]

theorem serveDiscard_asked (a : Asks rq (.discard n) s) : serveDiscard rq (taken s) = doDiscard n rq (taken s) := by
  have carries : parseReq (taken s).stationAddress 21 rq.params = some (.discard n) := a.carries
  simp only [serveDiscard, carries]

theorem doRelease_free (free : slotHold s n = none) : doRelease n rq s = answer 20 rq .notHeld [] s := by
  simp only [doRelease, free]

/-- The frame offered goes, or stays in its slot (R46). -/
theorem doRelease_held (held : slotHold s n = some h) :
    doRelease n rq s = if (offer h.released .guardUnit s).1.taken
      then answer 20 rq .ok [] (freeSlot n (offer h.released .guardUnit s).2)
      else answer 20 rq .busy [] (offer h.released .guardUnit s).2 := by
  simp only [doRelease, held]

theorem doDiscard_free (free : slotHold s n = none) : doDiscard n rq s = answer 21 rq .notHeld [] s := by
  simp only [doDiscard, free]

theorem doDiscard_held (held : slotHold s n ≠ none) : doDiscard n rq s = answer 21 rq .ok [] (freeSlot n s) := by
  obtain ⟨h, e⟩ := Option.ne_none_iff_exists'.1 held
  simp only [doDiscard, e]

/-- What a RELEASE answers: its service's answer, from a state with no notice under way and the port's choice made. -/
theorem release_answers {r : Result} {u : State} (a : Asks rq (.release n) s)
    (run : doRelease n rq (taken s) = answer 20 rq r [] u) (tells : u.tells = [])
    (arbiter : u.loop.port = .idle → u.loop.transit = [] ∧ u.loop.queue = []) :
    Answers (.release rq) 20 rq r [] s u :=
  answers_of (serveRelease rq) rfl a.toTakes ((serveRelease_asked a).trans run) tells arbiter

theorem discard_answers {r : Result} {u : State} (a : Asks rq (.discard n) s)
    (run : doDiscard n rq (taken s) = answer 21 rq r [] u) (tells : u.tells = [])
    (arbiter : u.loop.port = .idle → u.loop.transit = [] ∧ u.loop.queue = []) :
    Answers (.discard rq) 21 rq r [] s u :=
  answers_of (serveDiscard rq) rfl a.toTakes ((serveDiscard_asked a).trans run) tells arbiter

/-! ### The hold slot's timer (R48) -/

theorem holdSlotDue_held (held : slotHold s n = some h) :
    holdSlotDue s n = true ↔ 30000 ≤ (s.loopTime - h.time).toNat := by
  unfold holdSlotDue
  rw [held]
  exact decide_eq_true_iff

theorem holdSlotDue_free (free : slotHold s n = none) : ¬holdSlotDue s n = true := by
  unfold holdSlotDue
  rw [free]
  exact Bool.false_ne_true

theorem expireSlot_held (held : slotHold s n = some h) : expireSlot n s =
    raise .heldExpired (.vessel h.vessel) (s.vessels.get h.vessel).occupant (.num n) (freeSlot n s) := by
  unfold expireSlot
  rw [held]
  rfl

theorem exec_holdSlotExpiry_early (early : ¬holdSlotDue s n = true) : exec (.holdSlotExpiry n) s = .next s :=
  if_neg early

/-- The frame that the queue takes leaves its slot (R46). -/
theorem release_sent (a : Asks rq (.release n) s) (held : slotHold s n = some h)
    (others : ∀ q ∈ s.loop.queue, q.owner ≠ .boilUnit ∧ ∀ k, q.owner ≠ .pitchUnit k)
    (went : (offer h.released .guardUnit (taken s)).1.taken = true) :
    Answers (.release rq) 20 rq .ok [] s
      { (offer h.released .guardUnit (taken s)).2 with slots := s.slots.set n none } := by
  have run := doRelease_held (s := taken s) (rq := rq) held
  rw [if_pos went] at run
  have told := offer_untold (s := taken s) h.released .guardUnit a.arbiter others
  have busy := offer_busies (s := taken s) h.released .guardUnit a.arbiter
  have slots : (offer h.released .guardUnit (taken s)).2.slots = s.slots :=
    (slots_of_works (works_of_bare (offer_bare ..))).trans rfl
  generalize offer h.released .guardUnit (taken s) = sent at run told busy slots
  rw [freeSlot, slots] at run
  exact release_answers a run (told.trans a.tells) fun idle => absurd idle busy

/-- The frame that the queue refuses stays in its slot (R46). -/
theorem release_refused (a : Asks rq (.release n) s) (held : slotHold s n = some h)
    (others : ∀ q ∈ s.loop.queue, q.owner ≠ .boilUnit ∧ ∀ k, q.owner ≠ .pitchUnit k)
    (stays : (offer h.released .guardUnit (taken s)).1.taken = false) :
    Answers (.release rq) 20 rq .busy [] s (offer h.released .guardUnit (taken s)).2 := by
  have run := doRelease_held (s := taken s) (rq := rq) held
  rw [if_neg (by rw [stays]; decide)] at run
  have told := offer_untold (s := taken s) h.released .guardUnit a.arbiter others
  have busy := offer_busies (s := taken s) h.released .guardUnit a.arbiter
  exact release_answers a run (told.trans a.tells) fun idle => absurd idle busy

/-- Settles O24: the timer of a slot, RELEASE and DISCARD, each on a holding slot and on a free one. -/
theorem holdSlotsEmpty : Obligations.HoldSlotsEmpty := by
  refine ⟨fun n h s active tells held => ?_, fun n s free => exec_holdSlotExpiry_early (holdSlotDue_free free),
    fun n rq s a => ⟨fun free => ?_, fun h held others => ⟨release_sent a held others, release_refused a held others⟩⟩,
    fun n rq s a => ⟨fun free => ?_, fun held => ?_⟩⟩
  · intro passed
    have due := holdSlotDue_held held
    refine ⟨fun reached => ?_, fun early => exec_holdSlotExpiry_early (by rw [due]; exact Nat.not_le.2 early)⟩
    exact leaves_active (expireSlot n) (if_pos (due.2 reached)) active (expireSlot_held held)
      ((raise_tells ..).trans tells)
  · exact release_answers a (doRelease_free (s := taken s) free) a.tells a.arbiter
  · exact discard_answers a (doDiscard_free (s := taken s) free) a.tells a.arbiter
  · exact discard_answers a (doDiscard_held (s := taken s) held) a.tells a.arbiter

end Sys2Proof.Machine
end

section
/-! The AUTHORITY and LOCK requests (R35, R40, R41, R49, R76). -/

namespace Sys2Proof.Machine

variable {r s t : State} {v w : Vessel} {a : Authority} {n : Nat} {rq : Request} {mask : List Vessel} {on : Bool}
  {c : AuthorityCause}

/-! ### Events and the request taken (R170, R180) -/

/-- The event queue after an event: shed, overflowed or joined at its tail (R180). -/
theorem raise_events_eq (k : EventKind) (u : Subject) (b : Option Nat) (x : EventArg) (s : State) :
    (raise k u b x s).agent.events
      = if (decide (64 ≤ s.agent.events.length) || s.agent.shedding && !isAlarm k) = true then s.agent.events
        else s.agent.events ++ [{ time := s.loopTime, kind := k, subject := u, brew := b, arg := x }] := by
  unfold raise
  simp only
  split
  · split <;> split <;> simp only [latch_events]
  · rfl

/-- An event does not turn on the requests that wait. -/
theorem raise_taken_events (k : EventKind) (u : Subject) (b : Option Nat) (x : EventArg) (s : State) :
    (raise k u b x (taken s)).agent.events = (raise k u b x s).agent.events := by
  rw [raise_events_eq, raise_events_eq]
  rfl

theorem EventsFollow.from_events (h : EventsFollow s t) (e : s.agent.events = r.agent.events) : EventsFollow r t := by
  obtain ⟨more, events, others⟩ := h
  exact ⟨more, by rw [events, e], others⟩

/-! ### The sequencers and the slots at a change of authority (R35, R49, R76) -/

section
variable (h : (s.vessels.get v).authority ≠ a)
include h

theorem changeAuthority_seat : (changeAuthority v a c s).seat = (syncCauses v (putAuthority v a c s)).seat := by
  have told := seat_of_works (tellCast_works v a (syncCauses v (putAuthority v a c s)))
  rw [changeAuthority_eq c h]
  split
  · exact (emptySlots_seat ..).trans told
  · exact told

/-- The causes of the vessel's sequencer are brought up to date with the new authority (R35, R76). -/
theorem changeAuthority_synced : Synced v (withAuthority v a s) (changeAuthority v a c s) :=
  (syncCauses_synced v (putAuthority v a c s)).congr (outer_of_works (putAuthority_works c))
    (congrFun (seat_of_works (putAuthority_works c)) v) (congrFun (changeAuthority_seat h) v)

theorem changeAuthority_seat_other (other : w ≠ v) : (changeAuthority v a c s).seat w = s.seat w := by
  rw [changeAuthority_seat h, syncCauses_seat_other _ other, seat_of_works (putAuthority_works c)]
  simp only [State.seat, withAuthority, withVessel_vessels, PerVessel.get_set_other _ _ other, withVessel_seqs]

end

theorem causesNow_withAuthority_hand : (causesNow (withAuthority v a s) v).hand = (a == .hand) := by
  simp [causesNow, withAuthority]

theorem causesNow_withAuthority_any : (causesNow (withAuthority v .hand s) v).any = true := by
  rw [Causes.any, causesNow_withAuthority_hand]
  rfl

/-- At a change to HAND a sequencer under way is suspended (R35, R76). -/
theorem changeAuthority_suspends (h : (s.vessels.get v).authority ≠ .hand)
    (going : (s.seqs.get v).state = .running ∨ (s.seqs.get v).state = .blocked) :
    ((changeAuthority v .hand c s).seat v).state = .suspended :=
  ((changeAuthority_synced h).held causesNow_withAuthority_any).2.trans (if_pos going)

theorem suspend_still (v : Vessel) (s : State) : (suspend v s).still = s.still := by
  unfold suspend
  simp only
  split <;> simp

/-- With a cause holding no sequencer goes on, so no slot changes (R49, R76). -/
theorem syncCauses_slots (any : (causesNow s v).any = true) : (syncCauses v s).slots = s.slots := by
  rw [syncCauses_eq, if_pos any, if_pos any]
  cases (s.seat v).state with
  | running | blocked => exact slots_of_still (suspend_still v (causesNoted v s))
  | suspended | idle | armed | halted => rfl

/-- At a change to HAND the vessel's slots are emptied, and no other (R49). -/
theorem slotHold_changeAuthority (h : (s.vessels.get v).authority ≠ .hand) (inside : n < 4) :
    slotHold (changeAuthority v .hand c s) n = (slotHold s n).filter fun h => h.vessel != v := by
  have now : causesNow (putAuthority v .hand c s) v = causesNow (withAuthority v .hand s) v :=
    causesNow_congr (outer_of_works (putAuthority_works c)) (by rw [seat_of_works (putAuthority_works c)])
  have any : (causesNow (putAuthority v .hand c s) v).any = true := by
    rw [now]
    exact causesNow_withAuthority_any
  have slots : (tellCast v .hand (syncCauses v (putAuthority v .hand c s))).slots = s.slots :=
    (slots_of_works (tellCast_works ..)).trans
      ((syncCauses_slots any).trans ((slots_of_works (putAuthority_works c)).trans rfl))
  rw [changeAuthority_eq c h, if_pos rfl, slotsOfVessel, slotHold_emptySlots _ _ inside, slotHold_congr slots]
  rfl

/-! ### AUTHORITY (R40) -/

theorem VesselRec.locked_iff (r : VesselRec) : r.locked = true ↔ r.supervisorLock = true ∨ r.stepLock = true := by
  unfold VesselRec.locked
  rw [Bool.or_eq_true]

/-- The cause that an AUTHORITY request gives (R40). -/
def supervisorCause (a : Authority) : AuthorityCause := if a = .hand then .supervisorHand else .supervisorAuto

theorem supervisorCause_code (a : Authority) : authorityCauseCode (supervisorCause a) = if a = .hand then 3 else 4 := by
  cases a <;> rfl

theorem serveAuthority_asked (h : Asks rq (.authority v a) s) :
    serveAuthority rq (taken s) = doAuthority v a rq (taken s) := by
  have carries : parseReq (taken s).stationAddress 18 rq.params = some (.authority v a) := h.carries
  simp only [serveAuthority, carries]

theorem doAuthority_locked (h : a = .hand ∧ (s.vessels.get v).authority = .auto ∧ (s.vessels.get v).locked = true) :
    doAuthority v a rq s = answer 18 rq .locked (authorityBytes (s.vessels.get v)) s := if_pos h

theorem doAuthority_free (h : ¬(a = .hand ∧ (s.vessels.get v).authority = .auto ∧ (s.vessels.get v).locked = true)) :
    doAuthority v a rq s = answer 18 rq .ok
      (authorityBytes ((changeAuthority v a (supervisorCause a) s).vessels.get v))
      (changeAuthority v a (supervisorCause a) s) := if_neg h

theorem doAuthority_same (h : (s.vessels.get v).authority = a) :
    doAuthority v a rq s = answer 18 rq .ok (authorityBytes (s.vessels.get v)) s := by
  rw [doAuthority_free, changeAuthority_same _ h]
  rintro ⟨hand, auto, -⟩
  rw [h, hand] at auto
  cases auto

theorem authority_answers {x : Result} {data : List Byte} (h : Asks rq (.authority v a) s)
    (run : doAuthority v a rq (taken s) = answer 18 rq x data (taken s)) :
    Answers (.authority rq) 18 rq x data s (taken s) :=
  answers_of (serveAuthority rq) rfl h.toTakes ((serveAuthority_asked h).trans run) h.tells h.arbiter

theorem stationAddress_of_outer (h : t.outer = s.outer) : t.stationAddress = s.stationAddress := by
  show t.outer.stationAddress = s.outer.stationAddress
  rw [h]

/-- A REPLY and the settling of the blocks touch nothing of the works. -/
theorem settled_works (code : Nat) (rq : Request) (x : Result) (data : List Byte) (s : State) :
    (settle (answer code rq x data s)).works = s.works :=
  (settle_works _).trans (works_of_bare (answer_bare ..))

/-- A request's service that ends with a REPLY has replied, once the blocks have settled (R170). -/
theorem replied_settled (code : Nat) (rq : Request) (x : Result) (data : List Byte) (s : State) :
    Replied code rq x data (settle (answer code rq x data s)) :=
  ⟨s, (stationAddress_of_outer (outer_of_works (settled_works code rq x data s))).symm, rfl⟩

theorem exec_authority_free (h : Asks rq (.authority v a) s)
    (free : ¬(a = .hand ∧ (s.vessels.get v).authority = .auto ∧ (s.vessels.get v).locked = true)) :
    exec (.authority rq) s = .next (settle (answer 18 rq .ok
      (authorityBytes ((changeAuthority v a (supervisorCause a) (taken s)).vessels.get v))
      (changeAuthority v a (supervisorCause a) (taken s)))) := by
  refine congrArg Host.Outcome.next ?_
  rw [onRequest_takes (q := queuedOf 18 rq) (serveAuthority rq) h.toTakes, serveAuthority_asked h,
    doAuthority_free (s := taken s) free]

/-- The change is told before any other event (R35, R40). -/
theorem authorityRequest_events (h : (s.vessels.get v).authority ≠ a) :
    EventsFollow (raise .authorityChanged (.vessel v) (s.vessels.get v).occupant (.num (if a = .hand then 3 else 4)) s)
      (changeAuthority v a (supervisorCause a) (taken s)) := by
  rw [← supervisorCause_code]
  have told := putAuthority_events (s := taken s) (t := taken s) (v := v) (a := a) (supervisorCause a) rfl rfl rfl
  exact (changeAuthority_events (s := taken s) _ h told).from_events (raise_taken_events ..)

/-- Settles O25: a request refused, one that asks for what stands, and a change. -/
theorem authorityRequests : Obligations.AuthorityRequests := by
  intro v a rq s asks r i locked
  have lockedIs : (s.vessels.get v).locked = true ↔ locked := VesselRec.locked_iff _
  refine ⟨fun hand auto lock => ?_, fun same => ?_, fun other free => ?_⟩
  · exact authority_answers asks (doAuthority_locked (s := taken s) ⟨hand, auto, lockedIs.2 lock⟩)
  · exact authority_answers asks (doAuthority_same (s := taken s) same)
  · have run := exec_authority_free asks fun ⟨hand, _, lock⟩ => free hand (lockedIs.1 lock)
    have changes : ((taken s).vessels.get v).authority ≠ a := other
    let u := changeAuthority v a (supervisorCause a) (taken s)
    have works := settled_works 18 rq .ok (authorityBytes (u.vessels.get v)) u
    have seat (w : Vessel) := congrFun (seat_of_works works) w
    refine ⟨_, run, ?_, ?_, ?_, ?_, fun hand => ⟨fun n inside => ?_, fun going => ?_, fun w hw => ?_⟩⟩
    · rw [vessels_of_works works]
      exact replied_settled ..
    · exact (ruled_of_works works).trans (changeAuthority_ruled _ changes)
    · exact settle_quiet (answer_quiet _ _ _ _ (authorityRequest_events other))
    · refine (congrArg (fun x => x.causes.hand) (seat v)).trans ?_
      exact (congrArg Causes.hand (changeAuthority_synced changes).causes).trans causesNow_withAuthority_hand
    · subst hand
      rw [slotHold_congr (slots_of_works works)]
      exact slotHold_changeAuthority changes inside
    · subst hand
      exact (congrArg Seat.state (seat v)).trans (changeAuthority_suspends changes going)
    · exact congrArg Seat.state ((seat w).trans (changeAuthority_seat_other changes hw))

/-! ### LOCK (R41) -/

/-- A vessel's record with the supervisor lock that a mask sets, if it names the vessel (R41). -/
def VesselRec.lockSet (mask : List Vessel) (on : Bool) (v : Vessel) (r : VesselRec) : VesselRec :=
  { r with supervisorLock := if v ∈ mask then on else r.supervisorLock }

theorem setLocks_get (mask : List Vessel) (on : Bool) (s : State) (v : Vessel) :
    (setLocks mask on s).vessels.get v = (s.vessels.get v).lockSet mask on v := by
  induction mask generalizing s with
  | nil => simp [setLocks, VesselRec.lockSet]
  | cons w l ih =>
    show (setLocks l on (withVessel w (fun r => { r with supervisorLock := on }) s)).vessels.get v = _
    rw [ih, withVessel_vessels]
    by_cases e : v = w
    · subst e
      simp [VesselRec.lockSet]
    · rw [PerVessel.get_set_other _ _ e]
      simp [VesselRec.lockSet, e]

theorem setLocks_vessels_only (mask : List Vessel) (on : Bool) (s : State) :
    setLocks mask on s = { s with vessels := (setLocks mask on s).vessels } := by
  induction mask generalizing s with
  | nil => rfl
  | cons w l ih => exact ih (withVessel w (fun r => { r with supervisorLock := on }) s)

/-- The locks of the mask are set, and nothing else changes (R41). -/
theorem setLocks_eq (mask : List Vessel) (on : Bool) (s : State) : setLocks mask on s = { s with vessels :=
    { mash := s.vessels.mash.lockSet mask on .mash, lauter := s.vessels.lauter.lockSet mask on .lauter
      kettle := s.vessels.kettle.lockSet mask on .kettle
      whirlpool := s.vessels.whirlpool.lockSet mask on .whirlpool } } := by
  rw [setLocks_vessels_only]
  refine congrArg (fun p : PerVessel VesselRec => ({ s with vessels := p } : State)) (PerVessel.ext_get fun v => ?_)
  rw [setLocks_get]
  cases v <;> rfl

theorem serveLock_asked (h : Asks rq (.lock mask on) s) : serveLock rq (taken s) = doLock mask on rq (taken s) := by
  have carries : parseReq (taken s).stationAddress 19 rq.params = some (.lock mask on) := h.carries
  simp only [serveLock, carries]

/-- The four records in vessel order. -/
theorem allAuthorityBytes_eq (s : State) : allAuthorityBytes s = authorityBytes s.vessels.mash
    ++ authorityBytes s.vessels.lauter ++ authorityBytes s.vessels.kettle ++ authorityBytes s.vessels.whirlpool := by
  simp [allAuthorityBytes, vessels, PerVessel.get]

/-- Settles O26: the locks of the mask set, and the four records as they then stand. -/
theorem lockRequests : Obligations.LockRequests := by
  intro mask on rq s asks put u
  have set : setLocks mask on (taken s) = u := setLocks_eq mask on (taken s)
  have run : doLock mask on rq (taken s) = answer 19 rq .ok (allAuthorityBytes u) u := by
    rw [← set]
    rfl
  rw [allAuthorityBytes_eq] at run
  exact answers_of (serveLock rq) rfl asks.toTakes ((serveLock_asked asks).trans run) asks.tells asks.arbiter

end Sys2Proof.Machine
end

section
/-! The Brew Table (R52): what a search for a number, or for a free row, finds; and what the requests on brews ask of a
vessel and its sequencer. -/

namespace Sys2Proof.Machine

variable {s t : State} {n r : Nat} {b : Brew}

/-! ### A row by its brew's number -/

theorem brewRow?_eq_none_iff : brewRow? s n = none ↔ ∀ b, some b ∈ s.brews → b.number ≠ n := by
  unfold brewRow?
  rw [List.findIdx?_eq_none_iff]
  constructor
  · intro h b held
    simpa using h (some b) held
  · intro h row held
    cases row with
    | none => rfl
    | some b => simpa using h b held

/-- The lowest row of the number is found. -/
theorem brewRow?_lowest (held : s.brews[r]? = some (some b)) (named : b.number = n)
    (lowest : ∀ q x, q < r → s.brews[q]? = some (some x) → x.number ≠ n) : brewRow? s n = some r := by
  obtain ⟨inside, stands⟩ := List.getElem?_eq_some_iff.1 held
  refine List.findIdx?_eq_some_iff_getElem.2 ⟨inside, by simp [stands, named], fun q below => ?_⟩
  cases other : s.brews[q] with
  | none => simp
  | some x => simpa using lowest q x below (by rw [List.getElem?_eq_getElem (below.trans inside), other])

theorem brew?_of_row (row : brewRow? s n = some r) (held : s.brews[r]? = some (some b)) : brew? s n = some b := by
  unfold brew?
  rw [row, Option.bind_some, List.getD_eq_getElem?_getD, held]
  rfl

/-! ### Free rows -/

theorem freeRow_lowest (free : s.brews[r]? = some none) (lowest : ∀ q < r, ¬s.brews[q]? = some none) :
    s.brews.findIdx? Option.isNone = some r := by
  obtain ⟨inside, stands⟩ := List.getElem?_eq_some_iff.1 free
  refine List.findIdx?_eq_some_iff_getElem.2 ⟨inside, by simp [stands], fun q below => ?_⟩
  have taken := lowest q below
  rw [List.getElem?_eq_getElem (below.trans inside)] at taken
  simpa [Option.isNone_iff_eq_none] using taken

theorem freeRow_none (full : ∀ q : Nat, ¬s.brews[q]? = some none) : s.brews.findIdx? Option.isNone = none := by
  refine List.findIdx?_eq_none_iff.2 fun row held => ?_
  cases row with
  | none =>
    obtain ⟨q, stands⟩ := List.mem_iff_getElem?.1 held
    exact absurd stands (full q)
  | some b => rfl

/-! ### A brew's record changed twice -/

theorem withBrew_withBrew {f g : Brew → Brew} (hf : ∀ b, (f b).number = b.number) (n : Nat) (s : State) :
    withBrew n g (withBrew n f s) = withBrew n (fun b => g (f b)) s := by
  unfold withBrew
  simp only [List.map_map]
  congr 2
  funext row
  cases row with
  | none => rfl
  | some b =>
    by_cases named : b.number = n
    · simp [named, hf]
    · simp [named]

/-! ### Vessels available, and causes noted (R57, R63, R76) -/

theorem available_iff (s : State) (v : Vessel) :
    available s v = true ↔ (s.vessels.get v).occupancy = .empty ∧ vesselValid s.tables v = true := by
  simp [available]

/-- The causes that hold for a vessel whose row is valid (R76). -/
theorem causesNow_valid {v : Vessel} (valid : vesselValid s.tables v = true) : causesNow s v =
    { hand := (s.vessels.get v).authority == .hand, stale := !freshPoint s (vesselRow s.tables v).pv
      link := s.loop.linkDown, power := s.pins.powerFail } := by
  rw [causesNow, valid, Bool.true_and]

/-- An event changes the agent alone, as the agent and the loop time have it. -/
theorem raise_eq {t : State} (k : EventKind) (u : Subject) (b : Option Nat) (x : EventArg)
    (agent : t.agent = s.agent) (time : t.loopTime = s.loopTime) :
    raise k u b x t = { t with agent := (raise k u b x s).agent } := by
  cases s
  cases t
  dsimp only at agent time
  subst agent time
  unfold raise latch
  simp only
  split
  · split <;> split <;> rfl
  · rfl

theorem causesNoted_raise (v : Vessel) (k : EventKind) (u : Subject) (b : Option Nat) (x : EventArg) (s : State) :
    causesNoted v (raise k u b x s) = raise k u b x (causesNoted v s) := by
  rw [raise_eq k u b x (s := s) (t := causesNoted v s) rfl rfl, raise_eq k u b x (s := s) (t := s) rfl rfl]
  rfl

/-- The causes of a sequencer that is not under way are noted, and no more (R76). -/
theorem syncCauses_waits {v : Vessel}
    (h : (s.seat v).state = .idle ∨ (s.seat v).state = .armed ∨ (s.seat v).state = .halted) :
    syncCauses v s = causesNoted v s := by
  rw [syncCauses_eq]
  obtain e | e | e := h <;> rw [e]

end Sys2Proof.Machine
end

section
/-! The requests BREW_OPEN, BREW_ASSIGN and BREW_RELEASE (R52, R53, R55, R57, R59, R103). -/

namespace Sys2Proof.Machine

variable {s u : State} {n r : Nat} {b : Brew} {f : BrewFields} {rq : Request}

/-! ### BREW_OPEN (R55) -/

/-- Every row of a recipe's lists is valid just when each is at its position. -/
theorem recipeUsable_iff (t : Tables) (recipe : Nat) : recipeUsable t recipe = true ↔
    recipeValid t recipe = true
      ∧ (∀ v pos, pos < listCount t recipe v → stepValid t (listRow t recipe v pos) = true)
      ∧ ∀ i, i < (recipeRow t recipe).addCount → additionValid t (additionListRow t recipe i) = true := by
  have every (v : Vessel) : v ∈ vessels := by cases v <;> decide
  simp [recipeUsable, stepRows, additionRows, every, and_assoc]

theorem openBrew_duplicate (known : brewRow? s f.number ≠ none) : openBrew f s = (.duplicate, none, s) :=
  if_pos (Option.isSome_iff_ne_none.2 known)

theorem openBrew_full (unknown : brewRow? s f.number = none) (full : s.brews.findIdx? Option.isNone = none) :
    openBrew f s = (.tableFull, none, s) := by
  simp [openBrew, unknown, full]

section
variable (unknown : brewRow? s f.number = none) (row : s.brews.findIdx? Option.isNone = some r)
include unknown row

theorem openBrew_unusable (unusable : recipeUsable s.tables f.recipe = false) :
    openBrew f s = (.recipeInvalid, none, s) := by
  simp [openBrew, unknown, row, unusable]

theorem openBrew_strain (usable : recipeUsable s.tables f.recipe = true) (named : f.strain ≠ 0)
    (invalid : strainValid s.tables (f.strain - 1) = false) : openBrew f s = (.strainInvalid, none, s) := by
  simp [openBrew, unknown, row, usable, named, invalid]

theorem openBrew_opens (usable : recipeUsable s.tables f.recipe = true)
    (strain : f.strain = 0 ∨ strainValid s.tables (f.strain - 1) = true) : openBrew f s = (.ok, some r,
      raise .brewState .none (some f.number) (.num 0) { s with brews := s.brews.set r (some (newBrew f)) }) := by
  have passes : ¬(f.strain ≠ 0 ∧ strainValid s.tables (f.strain - 1) = false) := by
    rintro ⟨named, invalid⟩
    obtain zero | valid := strain
    · exact named zero
    · rw [invalid] at valid
      cases valid
  simp only [openBrew, unknown, row, usable, if_neg passes]
  rfl

end

/-- What a BREW_OPEN answers: the result of opening the brew. -/
theorem brewOpen_answers {x : Result} {row : Option Nat} (a : Asks rq (.brewOpen f) s)
    (run : openBrew f (taken s) = (x, row, u)) (tells : u.tells = []) (loop : u.loop = s.loop) :
    Answers (.brewOpen rq) 8 rq x ((row.map (num 1)).getD []) s u := by
  refine answers_of (serveBrewOpen rq) rfl a.toTakes ?_ tells (by rw [loop]; exact a.arbiter)
  have carries : parseReq (taken s).stationAddress 8 rq.params = some (.brewOpen f) := a.carries
  simp only [serveBrewOpen, carries, doBrewOpen, run]

/-- Settles O28: the four checks in their order, then the lowest free row. -/
theorem brewOpenRequests : Obligations.BrewOpenRequests := by
  intro f rq s a c known free sound strain brew
  have knownIs : brewRow? (taken s) f.number = none ↔ ¬known :=
    brewRow?_eq_none_iff.trans ⟨fun h ⟨b, held, named⟩ => h b held named, fun h b held named => h ⟨b, held, named⟩⟩
  have soundIs : recipeUsable (taken s).tables f.recipe = true ↔ sound := recipeUsable_iff ..
  refine ⟨fun h => ?_, fun h full => ?_, fun r h hr lowest => ?_⟩
  · exact brewOpen_answers a (openBrew_duplicate fun unknown => knownIs.1 unknown h) a.tells rfl
  · exact brewOpen_answers a (openBrew_full (knownIs.2 h) (freeRow_none (s := taken s) full)) a.tells rfl
  · have row := freeRow_lowest (s := taken s) hr lowest
    refine ⟨fun unsound => ?_, fun usable wrong => ?_, fun usable right => ?_⟩
    · rw [← soundIs, Bool.not_eq_true] at unsound
      exact brewOpen_answers a (openBrew_unusable (knownIs.2 h) row unsound) a.tells rfl
    · obtain ⟨named, invalid⟩ := not_or.1 wrong
      rw [Bool.not_eq_true] at invalid
      exact brewOpen_answers a (openBrew_strain (knownIs.2 h) row (soundIs.2 usable) named invalid) a.tells rfl
    · exact brewOpen_answers a (openBrew_opens (knownIs.2 h) row (soundIs.2 usable) right)
        ((raise_tells ..).trans a.tells) (raise_loop ..)

/-! ### BREW_ASSIGN (R57) -/

theorem brewAssign_answers {x : Result} (a : Asks rq (.brewAssign n) s) (run : assignBrew n (taken s) = (x, u))
    (tells : u.tells = []) (loop : u.loop = s.loop) : Answers (.brewAssign rq) 9 rq x [] s u := by
  refine answers_of (serveBrewAssign rq) rfl a.toTakes ?_ tells (by rw [loop]; exact a.arbiter)
  have carries : parseReq (taken s).stationAddress 9 rq.params = some (.brewAssign n) := a.carries
  simp only [serveBrewAssign, carries, doBrewAssign, run]

theorem assignBrew_unknown (unknown : brew? s n = none) : assignBrew n s = (.notFound, s) := by
  simp only [assignBrew, unknown]

theorem assignBrew_busy (found : brew? s n = some b) (other : b.state ≠ .opened) : assignBrew n s = (.busy, s) := by
  simp only [assignBrew, found]
  exact if_pos other

theorem assignBrew_taken (found : brew? s n = some b) (opened : b.state = .opened)
    (barred : available s .mash = false) : assignBrew n s = (.vesselBusy, s) := by
  simp [assignBrew, found, opened, barred]

/-- The mash sequencer with its list loaded (R57). -/
def listLoaded (b : Brew) (q : Sequencer) : Sequencer := { q with list := some b.recipe, state := .armed }

/-- A brew's record as it comes to the mashing vessel, but for its state (R57, R87). -/
def Brew.atMash (b : Brew) : Brew :=
  { b with occupied := [.mash], mash := some { steps := 0, rest := 0, deviation := 0 } }

/-- The mashing vessel with its new occupant (R57). -/
def mashOccupied (n : Nat) (s : State) : State :=
  withVessel .mash (fun r => { r with occupant := some n, occupancy := .resident }) s

/-- The vessel, the brew and the sequencer as a brew is assigned, but for the causes (R57). -/
def assigned (n : Nat) (b : Brew) (s : State) : State :=
  withSeq .mash (listLoaded b) (withBrew n (fun b => { b.atMash with state := .mashing }) (mashOccupied n s))

theorem assignBrew_assigns (found : brew? s n = some b) (opened : b.state = .opened)
    (free : available s .mash = true) : assignBrew n s =
      (.ok, raise .brewState (.vessel .mash) (some n) (.num 1) (causesNoted .mash (assigned n b s))) := by
  have once := withBrew_withBrew (f := Brew.atMash) (g := fun b => { b with state := .mashing }) (fun _ => rfl) n
    (mashOccupied n s)
  have placed : changeBrewState n .mashing (.vessel .mash)
        (withSeq .mash (listLoaded b) (withBrew n Brew.atMash (mashOccupied n s)))
      = raise .brewState (.vessel .mash) (some n) (.num 1) (assigned n b s) :=
    congrArg (fun t => raise .brewState (.vessel .mash) (some n) (.num 1) (withSeq .mash (listLoaded b) t)) once
  have armed : ((raise .brewState (.vessel .mash) (some n) (.num 1) (assigned n b s)).seat .mash).state = .armed :=
    congrArg Seat.state (congrFun (seat_of_bare (raise_bare ..)) .mash)
  rw [← causesNoted_raise, ← syncCauses_waits (.inr (.inl armed)), ← placed]
  simp only [assignBrew, found, opened, free]
  rfl

/-- Settles O29: the three refusals in their order, then the brew in the mashing vessel. -/
theorem brewAssignRequests : Obligations.BrewAssignRequests := by
  intro n rq s a c m
  have freeIs : available (taken s) .mash = true ↔ m.occupancy = .empty ∧ vesselValid s.tables .mash = true :=
    available_iff ..
  refine ⟨fun unknown => ?_, fun b found => ⟨fun other => ?_, fun opened barred => ?_, fun opened empty valid => ?_⟩⟩
  · exact brewAssign_answers a (assignBrew_unknown (s := taken s) unknown) a.tells rfl
  · exact brewAssign_answers a (assignBrew_busy (s := taken s) found other) a.tells rfl
  · rw [← freeIs, Bool.not_eq_true] at barred
    exact brewAssign_answers a (assignBrew_taken (s := taken s) found opened barred) a.tells rfl
  · have run := assignBrew_assigns (s := taken s) found opened (freeIs.2 ⟨empty, valid⟩)
    have causes := causesNow_valid (s := assigned n b (taken s)) valid
    rw [causesNoted, causes] at run
    exact brewAssign_answers a run ((raise_tells ..).trans a.tells) (raise_loop ..)

/-! ### BREW_RELEASE (R59) -/

theorem brewRelease_answers {x : Result} (a : Asks rq (.brewRelease n) s) (run : releaseBrew n (taken s) = (x, u))
    (tells : u.tells = s.tells) (loop : u.loop = s.loop) : Answers (.brewRelease rq) 11 rq x [] s u := by
  refine answers_of (serveBrewRelease rq) rfl a.toTakes ?_ (tells.trans a.tells) (by rw [loop]; exact a.arbiter)
  have carries : parseReq (taken s).stationAddress 11 rq.params = some (.brewRelease n) := a.carries
  simp only [serveBrewRelease, carries, doBrewRelease, run]

theorem releaseBrew_unknown (unknown : brewRow? s n = none) : releaseBrew n s = (.notFound, s) := by
  simp only [releaseBrew, unknown]

/-- A row found is freed, with the brew's entries of the send queue, or answered BUSY (R59). -/
theorem releaseBrew_found (row : brewRow? s n = some r) (held : s.brews[r]? = some (some b)) : releaseBrew n s =
    if (b.state = .cast ∨ b.state = .abandoned) ∧ b.occupied = [] then
      (.ok, dropSends n { s with brews := s.brews.set r none })
    else (.busy, s) := by
  simp only [releaseBrew, row, brew?_of_row row held]

/-- Settles O31: a number no row holds, a finished brew in no vessel, and any other brew. -/
theorem brewReleaseRequests : Obligations.BrewReleaseRequests := by
  intro n rq s a c
  refine ⟨fun unknown => ?_, fun r b held named lowest => ?_⟩
  · exact brewRelease_answers a (releaseBrew_unknown (s := taken s) (brewRow?_eq_none_iff.2 unknown)) rfl rfl
  · have run := releaseBrew_found (s := taken s) (brewRow?_lowest (s := taken s) held named lowest) held
    refine ⟨fun finished left => ?_, fun stays => ?_⟩
    · rw [if_pos ⟨finished, left⟩] at run
      exact brewRelease_answers a run rfl rfl
    · rw [if_neg stays] at run
      exact brewRelease_answers a run rfl rfl

end Sys2Proof.Machine
end

section
/-! The requests that read a record, in pages (R59, R111, R152, R173). -/

namespace Sys2Proof.Machine

variable {s : State} {n p : Nat} {rq : Request}

/-! ### The requests (R59, R111, R152) -/

theorem brewRead_answers {x : Result} {data : List Byte} (a : Asks rq (.brewRead n p) s)
    (run : doBrewRead n p rq (taken s) = answer 12 rq x data (taken s)) :
    Answers (.brewRead rq) 12 rq x data s (taken s) := by
  refine answers_of (serveBrewRead rq) rfl a.toTakes (.trans ?_ run) a.tells a.arbiter
  have carries : parseReq (taken s).stationAddress 12 rq.params = some (.brewRead n p) := a.carries
  simp only [serveBrewRead, carries]

theorem castRead_answers {x : Result} {data : List Byte} (a : Asks rq (.castRead p) s)
    (run : doCastRead p rq (taken s) = answer 23 rq x data (taken s)) :
    Answers (.castRead rq) 23 rq x data s (taken s) := by
  refine answers_of (serveCastRead rq) rfl a.toTakes (.trans ?_ run) a.tells a.arbiter
  have carries : parseReq (taken s).stationAddress 23 rq.params = some (.castRead p) := a.carries
  simp only [serveCastRead, carries]

theorem dutyRead_answers {x : Result} {data : List Byte} (a : Asks rq .dutyRead s)
    (run : doDutyRead rq (taken s) = answer 26 rq x data (taken s)) :
    Answers (.dutyRead rq) 26 rq x data s (taken s) := by
  refine answers_of (serveDutyRead rq) rfl a.toTakes (.trans ?_ run) a.tells a.arbiter
  have carries : parseReq (taken s).stationAddress 26 rq.params = some .dutyRead := a.carries
  simp only [serveDutyRead, carries]

/-! ### The pages (R173) -/

/-- The least count of pages of 116 bytes that hold the data. -/
theorem pageCount_bounds (data : List Byte) : 1 ≤ pageCount data ∧ data.length ≤ pageCount data * 116
    ∧ (1 < pageCount data → (pageCount data - 1) * 116 < data.length) := by
  unfold pageCount
  omega

theorem num_one {k : Nat} (h : k ≤ 255) : num 1 k = [BitVec.ofNat 8 k] := by
  have fits : fit (8 * 1) k = k := fit_of_lt (by omega)
  simp [num, fits, digits]

/-- The bytes of a page. -/
def pageBytes (p : Nat) (data : List Byte) : List Byte :=
  if p < pageCount data then (data.drop (p * 116)).take 116 else []

theorem pageOf_eq {data : List Byte} (hp : p ≤ 255) (hc : pageCount data ≤ 255) :
    pageOf p data = BitVec.ofNat 8 p :: BitVec.ofNat 8 (pageCount data) :: pageBytes p data := by
  rw [pageOf, num_one hp, num_one hc]
  rfl

/-- The first pages in order are the start of the data. -/
theorem pages_flatMap (data : List Byte) (k : Nat) :
    (List.range k).flatMap (fun p => (data.drop (p * 116)).take 116) = data.take (k * 116) := by
  induction k with
  | zero => simp
  | succ k ih =>
    rw [List.range_succ, List.flatMap_append, ih, List.flatMap_singleton, Nat.succ_mul, List.take_add]

/-- Settles O32: the three reads, then the pages of any data that 255 of them hold. -/
theorem recordReadRequests : Obligations.RecordReadRequests := by
  refine ⟨fun rq s => ⟨fun n p a => ⟨fun b found => ?_, fun unknown => ?_⟩,
    fun p a => ⟨fun c found => ?_, fun unknown => ?_⟩, fun a => ⟨fun ready => ?_, fun waits => ?_⟩⟩,
    fun data short => ?_⟩
  · exact brewRead_answers a (by simp only [doBrewRead, show brew? (taken s) n = some b from found]; rfl)
  · exact brewRead_answers a (by simp only [doBrewRead, show brew? (taken s) n = none from unknown]; rfl)
  · exact castRead_answers a (by simp only [doCastRead, show (taken s).castMeter.record = some c from found]; rfl)
  · exact castRead_answers a (by simp only [doCastRead, show (taken s).castMeter.record = none from unknown]; rfl)
  · exact dutyRead_answers a (if_pos ready)
  · exact dutyRead_answers a (if_neg waits)
  · obtain ⟨least, holds, tight⟩ := pageCount_bounds data
    have fits : pageCount data ≤ 255 := by
      by_contra more
      have := tight (by omega)
      omega
    refine ⟨least, holds, tight, fun p hp => ⟨pageBytes p data, pageOf_eq hp fits, ?_, fun past => ?_, fun full => ?_⟩,
      ?_⟩
    · unfold pageBytes
      split
      · exact List.length_take_le ..
      · exact Nat.zero_le _
    · exact if_neg (Nat.not_lt.2 past)
    · have more := tight (Nat.lt_of_le_of_lt (Nat.le_add_left 1 p) full)
      have before : (p + 1) * 116 ≤ (pageCount data - 1) * 116 := Nat.mul_le_mul_right 116 (Nat.le_sub_one_of_lt full)
      rw [pageBytes, if_pos (Nat.lt_of_succ_lt full), List.length_take, List.length_drop]
      omega
    · have body : ∀ p ∈ List.range (pageCount data), (pageOf p data).drop 2 = (data.drop (p * 116)).take 116 := by
        intro p inside
        rw [List.mem_range] at inside
        rw [pageOf_eq (by omega) fits]
        exact if_pos inside
      rw [List.flatMap_congr body, pages_flatMap, List.take_of_length_le holds]

end Sys2Proof.Machine
end

section
/-! The brews' records but for their boil records: the Boil Unit, the Cast Meter, a halt and the settling of the blocks
leave them as they are (R58, R82, R103, R107, R121). -/

namespace Sys2Proof.Machine

variable {s t : State} {v : Vessel} {n : Nat} {b : Brew} {f : Brew → Brew}

/-! ### The brews with their boil records set aside -/

/-- A brew's record with its boil record set aside. -/
def Brew.plain (b : Brew) : Brew := { b with boil := none }

def State.plainBrews (s : State) : List (Option Brew) := s.brews.map (Option.map Brew.plain)

theorem plainBrews_of_brews (h : t.brews = s.brews) : t.plainBrews = s.plainBrews := by
  unfold State.plainBrews
  rw [h]

theorem plainBrews_of_still (h : t.still = s.still) : t.plainBrews = s.plainBrews :=
  plainBrews_of_brews (brews_of_still h)

theorem plainBrews_of_bare (h : t.bare = s.bare) : t.plainBrews = s.plainBrews := plainBrews_of_still (still_of_bare h)

/-- A number is found in the same row, with the same record but for what is set aside. -/
theorem brew?_plain (s : State) (n : Nat) :
    (brew? s n).map Brew.plain = brew? { s with brews := s.plainBrews } n := by
  have row : brewRow? { s with brews := s.plainBrews } n = brewRow? s n := by
    unfold brewRow? State.plainBrews
    rw [List.findIdx?_map]
    congr 1
    funext b
    cases b <;> rfl
  unfold brew?
  rw [row]
  cases brewRow? s n with
  | none => rfl
  | some r =>
    simp only [Option.bind_some, State.plainBrews, List.getD_eq_getElem?_getD, List.getElem?_map]
    cases s.brews[r]? <;> rfl

theorem brew?_of_plainBrews (h : t.plainBrews = s.plainBrews) (found : brew? s n = some b) :
    ∃ d, brew? t n = some d ∧ d.plain = b.plain := by
  have same : (brew? t n).map Brew.plain = (brew? s n).map Brew.plain := by
    rw [brew?_plain, brew?_plain, h]
    rfl
  rw [found, Option.map_some] at same
  exact Option.map_eq_some_iff.1 same

/-- What is read of a brew's record beside its boil record. -/
theorem Brew.read_of_plain {d : Brew} (h : d.plain = b.plain) : d.occupied = b.occupied ∧ d.state = b.state :=
  ⟨(congrArg Brew.occupied h :), (congrArg Brew.state h :)⟩

theorem withBoilRecord_plainBrews (n : Nat) (f : BoilRecord → BoilRecord) (s : State) :
    (withBoilRecord n f s).plainBrews = s.plainBrews := by
  unfold withBoilRecord State.plainBrews
  rw [withBrew_brews, List.map_map]
  refine List.map_congr_left fun row _ => ?_
  cases row with
  | none => rfl
  | some b =>
    by_cases named : b.number = n
    · simp [named, Brew.plain]
    · simp [named]

/-! ### The Boil Unit (R103, R107) -/

theorem recordMissed_plainBrews (n i : Nat) (c : MissCause) (s : State) :
    (recordMissed n i c s).plainBrews = s.plainBrews :=
  (plainBrews_of_bare (raiseBoil_bare ..)).trans (withBoilRecord_plainBrews ..)

theorem recordFired_plainBrews (n i : Nat) (s : State) : (recordFired n i s).plainBrews = s.plainBrews :=
  (plainBrews_of_bare (raiseBoil_bare ..)).trans (withBoilRecord_plainBrews ..)

theorem pumpSend_plainBrews (k : Nat) (s : State) : (pumpSend k s).plainBrews = s.plainBrews := by
  induction k generalizing s with
  | zero => rfl
  | succ k ih =>
    unfold pumpSend
    split
    · rfl
    · split
      · rfl
      · rename_i e _ _
        split
        · exact ih _
        · have offered := plainBrews_of_bare (offerAddition_bare e s)
          split <;> (rename_i left; rw [left] at offered)
          · exact (ih _).trans ((recordMissed_plainBrews ..).trans offered)
          · exact offered
          · exact (recordFired_plainBrews ..).trans offered
          · exact (ih _).trans ((recordFired_plainBrews ..).trans offered)

theorem recordAll_plainBrews (n : Nat) (c : MissCause) (l : List SendEntry) (s : State) :
    (l.foldl (fun s e => recordMissed n e.index c s) s).plainBrews = s.plainBrews := by
  induction l generalizing s with
  | nil => rfl
  | cons e l ih => rw [List.foldl_cons, ih, recordMissed_plainBrews]

theorem haltSends_plainBrews (n : Nat) (s : State) : (haltSends n s).plainBrews = s.plainBrews :=
  recordAll_plainBrews n .halted _ (dropSends n s)

theorem haltBoilStep_plainBrews (n : Nat) (s : State) : (haltBoilStep n s).plainBrews = s.plainBrews := by
  have begun : (if s.boil.begun then withBoilRecord n (fun r => { r with halted := true }) s else s).plainBrews
      = s.plainBrews := by
    split
    · exact withBoilRecord_plainBrews ..
    · rfl
  unfold haltBoilStep
  simp only
  split
  · exact (recordMissed_plainBrews ..).trans begun
  · exact begun

/-! ### The Cast Meter and the Pitch Unit (R120, R121, R131) -/

theorem drivePump_brews (d : Nat) (s : State) : (drivePump d s).brews = s.brews := by
  have offered := brews_of_still (still_of_bare (offerDrive_bare (lineRow s.tables).pump d .castMeter s))
  rw [drivePump_eq]
  exact offered

theorem reviewPauses_settling {c : Cast} (hc : s.castMeter.record = some c) (settling : c.state = .settling) :
    reviewPauses s = withCast (fun d => { d with pauses := nextPauses s c }) s := by
  unfold reviewPauses
  simp only [hc, settling]

theorem enterSettling_brews (s : State) : (enterSettling s).brews = s.brews := by
  unfold enterSettling
  cases hc : s.castMeter.record with
  | none =>
    rw [reviewPauses, withCast_castMeter]
    simp only [hc, Option.map_none]
    rfl
  | some c =>
    rw [reviewPauses_settling (withCast_record hc _) rfl]
    rfl

theorem endTrigger_brews (c : EndCause) (s : State) : (endTrigger c s).brews = s.brews := by
  unfold endTrigger
  split
  · rfl
  · split
    · rfl
    · rw [drivePump_brews, enterSettling_brews]
      rfl
    · exact enterSettling_brews _
    · rfl
    · rfl
    · rfl

theorem tryIssue_brews (s : State) : (tryIssue s).brews = s.brews := by
  unfold tryIssue
  split
  · rfl
  · split
    · rfl
    · rename_i c _ _ _ _
      split
      · have offered := brews_of_still
          (still_of_bare (offerDrive_bare (lineRow s.tables).dose 1000 (.pitchUnit c.number) s))
        split <;> (rename_i left; rw [left] at offered; exact offered)
      · rfl

theorem doseFrameLeft_brews (n : Nat) (s : State) : (doseFrameLeft n s).brews = s.brews := by
  unfold doseFrameLeft
  simp only
  rw [tryIssue_brews]
  split <;> rfl

/-! ### The end of a command -/

theorem drainTells_plainBrews (k : Nat) (s : State) : (drainTells k s).plainBrews = s.plainBrews := by
  induction k generalizing s with
  | zero => rfl
  | succ k ih =>
    unfold drainTells
    split
    · rfl
    · rename_i o rest _
      rw [ih]
      cases o with
      | boilUnit => exact pumpSend_plainBrews ..
      | pitchUnit c => exact plainBrews_of_brews (doseFrameLeft_brews ..)
      | agent | guardUnit | sequencer | castMeter => rfl

theorem settle_plainBrews (s : State) : (settle s).plainBrews = s.plainBrews := by
  have refreshed : (vessels.foldl refreshSync (drainTells 64 s)).plainBrews = (drainTells 64 s).plainBrews :=
    (congrArg State.plainBrews (refreshAll_rest vessels (drainTells 64 s)) :)
  have conditions := plainBrews_of_bare (syncConditions_bare (vessels.foldl refreshSync (drainTells 64 s)))
  exact conditions.trans (refreshed.trans (drainTells_plainBrews 64 s))

/-- A REPLY and the settling of the blocks touch the brews in their boil records alone. -/
theorem settled_plainBrews (code : Nat) (rq : Request) (x : Result) (data : List Byte) (s : State) :
    (settle (answer code rq x data s)).plainBrews = s.plainBrews :=
  (settle_plainBrews _).trans (plainBrews_of_bare (answer_bare ..))

/-! ### Halts (R82) -/

theorem endStep_brews (v : Vessel) (s : State) : (endStep v s).brews = s.brews := by
  unfold endStep
  simp only
  split
  · exact (brews_of_calm (emptySlots_calm ..)).trans rfl
  · rfl

theorem haltStep_plainBrews (v : Vessel) (s : State) : (haltStep v s).plainBrews = s.plainBrews := by
  have cut : (stepCut v s).plainBrews = s.plainBrews := by
    have ended := plainBrews_of_brews (endStep_brews v s)
    unfold stepCut
    split
    · split
      · exact (plainBrews_of_still (transferOff_still ..)).trans ended
      · exact ended
    · exact ended
  have boil (n : Nat) (p : Prop) [Decidable p] (t : State) :
      (haltSends n (if p then haltBoilStep n t else t)).plainBrews = t.plainBrews := by
    rw [haltSends_plainBrews]
    split
    · exact haltBoilStep_plainBrews ..
    · rfl
  unfold haltStep
  simp only
  split
  · exact (boil ..).trans cut
  · exact cut

theorem becomeHalted_plainBrews (v : Vessel) (s : State) : (becomeHalted v s).plainBrews = s.plainBrews :=
  plainBrews_of_still (forceZero_still ..)

theorem leftSuspended_plainBrews (v : Vessel) (s : State) : (leftSuspended v s).plainBrews = s.plainBrews := by
  unfold leftSuspended
  split
  · exact pumpSend_plainBrews ..
  · rfl

theorem halt_plainBrews (v : Vessel) (reset : Bool) (s : State) : (halt v reset s).plainBrews = s.plainBrews := by
  have cut : (becomeHalted v (haltStep v s)).plainBrews = s.plainBrews :=
    (becomeHalted_plainBrews ..).trans (haltStep_plainBrews v s)
  unfold halt
  cases (s.seqs.get v).state with
  | running | blocked => exact cut
  | suspended => exact (leftSuspended_plainBrews ..).trans cut
  | armed => exact becomeHalted_plainBrews v s
  | idle =>
    simp only
    split
    · exact becomeHalted_plainBrews v s
    · rfl
  | halted => rfl

end Sys2Proof.Machine
end

section
/-! A TRANSFER step BLOCKED on its destination (R64, R65). -/

namespace Sys2Proof.Machine

variable {s t : State} {v w : Vessel} {st : StepRow}

/-! ### A step's stage -/

/-- Of a sequencer how far its step has come: its phase, and why it is blocked (R75). -/
def Sequencer.stage (q : Sequencer) : Phase × Option BlockReason := (q.phase, q.blocked)

def State.stage (s : State) (v : Vessel) : Phase × Option BlockReason := (s.seqs.get v).stage

theorem stage_of_works (h : t.works = s.works) : t.stage = s.stage := by
  have same : ∀ u : State, u.works.stage = u.stage := by
    intro u
    funext v
    cases v <;> rfl
  rw [← same t, h, same]

theorem withSeq_stage {f : Sequencer → Sequencer} (h : ∀ q, (f q).stage = q.stage := by intros; rfl) :
    (withSeq v f s).stage = s.stage := by
  funext w
  unfold State.stage
  rw [withSeq_seqs]
  by_cases e : w = v
  · rw [e, PerVessel.get_set_same, h]
  · rw [PerVessel.get_set_other _ _ e]

/-- Drives are offered at any stage, and leave it (R74). -/
theorem stepDrive_stage (v : Vessel) (u : UnsentOffer) (s : State) : (stepDrive v u s).2.stage = s.stage := by
  have offered : (seqOffer v u s).2.stage = s.stage := by
    rw [seqOffer_eq]
    exact Eq.trans withSeq_stage (stage_of_works (offerDrive_works ..))
  rw [stepDrive_eq]
  simp only
  split
  · exact Eq.trans withSeq_stage offered
  · exact offered

theorem transferDrive_stage (v : Vessel) (r : Option Nat) (d : Nat) (s : State) :
    (transferDrive v r d s).stage = s.stage := by
  unfold transferDrive
  split
  · exact stepDrive_stage ..
  · rfl

theorem transferOn_stage (v : Vessel) (st : StepRow) (s : State) : (transferOn v st s).stage = s.stage :=
  (transferDrive_stage ..).trans (transferDrive_stage ..)

/-! ### A transfer opens (R65) -/

theorem transferInEffect_seat (v : Vessel) (st : StepRow) (s : State) :
    (transferInEffect v st s).seat v = { s.seat v with state := .running } := by
  unfold transferInEffect
  simp only
  rw [transferOn_seat, withVessel_seat, withSeq_seat_same]
  rfl

theorem transferInEffect_stage (v : Vessel) (st : StepRow) (s : State) :
    (transferInEffect v st s).stage v = (.inEffect, none) := by
  refine (congrFun (transferOn_stage v st _) v).trans ?_
  show ((withSeq v (fun q => { q with state := .running, phase := .inEffect, blocked := none }) s).seqs.get v).stage = _
  rw [withSeq_seqs, PerVessel.get_set_same]
  rfl

theorem transferInEffect_vessels (v : Vessel) (st : StepRow) (s : State) :
    (transferInEffect v st s).vessels = s.vessels.set v { s.vessels.get v with stepLock := true } :=
  vessels_of_still (transferOn_still ..)

theorem transferInEffect_brews (v : Vessel) (st : StepRow) (s : State) : (transferInEffect v st s).brews = s.brews :=
  (brews_of_still (transferOn_still ..)).trans rfl

/-- The transfer's occupancies: the source DRAINING, the destination FILLING with its occupant (R62, R65). -/
def transferPlaced (v w : Vessel) (s : State) : State :=
  withVessel w (fun r => { r with occupancy := .filling, occupant := (s.vessels.get v).occupant })
    (withVessel v (fun r => { r with occupancy := .draining }) s)

/-- The brew in transfer, if the source names one, occupies both vessels (R65). -/
def brewSpread (v w : Vessel) (occupant : Option Nat) (s : State) : State :=
  match occupant with
  | some n => withBrew n (fun b => { b with occupied := [v, w] }) s
  | none => s

theorem brewSpread_works (v w : Vessel) (occupant : Option Nat) (s : State) :
    (brewSpread v w occupant s).works = s.works := by
  cases occupant <;> rfl

theorem openTransfer_eq (v w : Vessel) (st : StepRow) (s : State) : openTransfer v w st s
    = transferInEffect v st (brewSpread v w (s.vessels.get v).occupant (transferPlaced v w s)) := rfl

theorem openTransfer_seat (v w : Vessel) (st : StepRow) (s : State) :
    (openTransfer v w st s).seat v = { s.seat v with state := .running } := by
  have placed : (transferPlaced v w s).seat = s.seat := Eq.trans withVessel_seat withVessel_seat
  rw [openTransfer_eq, transferInEffect_seat, seat_of_works (brewSpread_works ..), placed]

theorem openTransfer_stage (v w : Vessel) (st : StepRow) (s : State) :
    (openTransfer v w st s).stage v = (.inEffect, none) := transferInEffect_stage ..

theorem transferPlaced_get (apart : w ≠ v) : (transferPlaced v w s).vessels.get v
      = { s.vessels.get v with occupancy := .draining }
    ∧ (transferPlaced v w s).vessels.get w
      = { s.vessels.get w with occupancy := .filling, occupant := (s.vessels.get v).occupant } := by
  unfold transferPlaced
  rw [withVessel_vessels, withVessel_vessels, PerVessel.get_set_other _ _ apart.symm, PerVessel.get_set_same,
    PerVessel.get_set_same, PerVessel.get_set_other _ _ apart]
  exact ⟨rfl, rfl⟩

theorem openTransfer_vessels (apart : w ≠ v) : (openTransfer v w st s).vessels.get v
      = { s.vessels.get v with occupancy := .draining, stepLock := true }
    ∧ (openTransfer v w st s).vessels.get w
      = { s.vessels.get w with occupancy := .filling, occupant := (s.vessels.get v).occupant } := by
  have placed : (openTransfer v w st s).vessels = (transferPlaced v w s).vessels.set v
      { (transferPlaced v w s).vessels.get v with stepLock := true } := by
    rw [openTransfer_eq, transferInEffect_vessels, vessels_of_works (brewSpread_works ..)]
  obtain ⟨source, destination⟩ := transferPlaced_get (s := s) apart
  rw [placed, PerVessel.get_set_same, PerVessel.get_set_other _ _ apart, source, destination]
  exact ⟨rfl, rfl⟩

theorem openTransfer_brew {n : Nat} (occupant : (s.vessels.get v).occupant = some n) :
    brew? (openTransfer v w st s) n = (brew? s n).map fun b => { b with occupied := [v, w] } := by
  have brews : (openTransfer v w st s).brews = (withBrew n (fun b => { b with occupied := [v, w] }) s).brews := by
    rw [openTransfer_eq, transferInEffect_brews, occupant]
    rfl
  refine Eq.trans ?_ (brew?_withBrew (f := fun b => { b with occupied := [v, w] }) (fun _ => rfl) n s)
  unfold brew? brewRow?
  rw [brews]

/-! ### The command (R64) -/

theorem canUnblock_iff (blocked : (s.seqs.get v).state = .blocked)
    (reason : (s.seqs.get v).blocked = some .destinationBusy) (hd : destinationOf v = some w) :
    canUnblock s v = true ↔ (s.vessels.get w).occupancy = .empty ∧ vesselValid s.tables w = true := by
  rw [← available_iff]
  simp [canUnblock, blocked, reason, hd]

theorem takeEffect_opens (hs : currentStep s v = some st) (kind : st.kind = .transfer) (hd : destinationOf v = some w)
    (closed : (s.vessels.get v).occupancy ≠ .draining) (free : available s w = true) :
    takeEffect v s = (false, openTransfer v w st s) := by
  have shut : transferOpenTo s v w = false := by simp [transferOpenTo, closed]
  unfold takeEffect
  simp only [hs, kind, hd, shut, free]
  rfl

/-- Settles O39: with its destination free the blocked step takes effect and opens the transfer, and else it waits. -/
theorem blockedTransferTakesEffect : Obligations.BlockedTransferTakesEffect := by
  intro v w st s active hd q blocked reason hs kind closed free
  have can : canUnblock s v = true ↔ free := canUnblock_iff blocked reason hd
  refine ⟨fun barred => if_neg fun x => barred (can.1 x), fun now => ?_⟩
  have apart := destinationOf_ne hd
  have effect := takeEffect_opens hs kind hd closed ((available_iff s w).2 now)
  have opened : advance 256 v s = openTransfer v w st s := by
    unfold advance
    rw [effect]
  have works := settle_works (openTransfer v w st s)
  have runs := openTransfer_runs v w st s
  have seat (u : Vessel) := congrFun (seat_of_works works) u
  have here := (seat v).trans (openTransfer_seat v w st s)
  have stage := (congrFun (stage_of_works works) v).trans (openTransfer_stage v w st s)
  obtain ⟨source, destination⟩ := openTransfer_vessels (s := s) (st := st) apart
  refine ⟨settle (openTransfer v w st s), ?_, (ruled_of_works works).trans runs.ruled, ?_⟩
  · refine (if_pos (can.2 now)).trans (congrArg Host.Outcome.next ?_)
    rw [whenActive, if_pos active, opened]
  · rw [vessels_of_works works, source, destination]
    refine ⟨rfl, rfl, rfl, rfl, rfl, congrArg Seat.state here, congrArg Prod.fst stage, congrArg Prod.snd stage,
      congrArg Seat.position here, fun u other => ?_, fun n b occupant found => ?_⟩
    · exact congrArg Seat.state ((seat u).trans (runs.others u other))
    · have there := openTransfer_brew (w := w) (st := st) occupant
      rw [found] at there
      obtain ⟨d, held, same⟩ := brew?_of_plainBrews (settle_plainBrews (openTransfer v w st s)) there
      obtain ⟨occupied, state⟩ := Brew.read_of_plain same
      exact ⟨d, held, occupied, state⟩

end Sys2Proof.Machine
end

section
/-! The request BREW_ABANDON (R58, R84). -/

namespace Sys2Proof.Machine

variable {s t u : State} {v w : Vessel} {n : Nat} {b : Brew} {rq : Request}

/-! ### The halts of an abandoned brew's vessels (R58, R82) -/

/-- Of a vessel's record its occupant and its occupancy (R62). -/
def VesselRec.held (r : VesselRec) : Option Nat × Occupancy := (r.occupant, r.occupancy)

theorem held_set {x : VesselRec} (same : x.held = (s.vessels.get v).held) (w : Vessel) :
    ((s.vessels.set v x).get w).held = (s.vessels.get w).held := by
  by_cases e : w = v
  · rw [e, PerVessel.get_set_same, same]
  · rw [PerVessel.get_set_other _ _ e]

/-- A halt leaves every occupant and occupancy. -/
theorem halt_held (v : Vessel) (reset : Bool) (s : State) (w : Vessel) :
    ((halt v reset s).vessels.get w).held = (s.vessels.get w).held := by
  have step (going : (s.seqs.get v).state = .running ∨ (s.seqs.get v).state = .suspended
      ∨ (s.seqs.get v).state = .blocked) : ((halt v reset s).vessels.get w).held = (s.vessels.get w).held := by
    rw [(halt_step reset going).2, becomeHalted_vessels, haltStep_vessels]
    exact held_set (s := s) (x := { s.vessels.get v with stepLock := false }) rfl w
  cases state : (s.seqs.get v).state with
  | running => exact step (.inl state)
  | suspended => exact step (.inr (.inl state))
  | blocked => exact step (.inr (.inr state))
  | armed =>
    simp only [halt, state]
    rw [becomeHalted_vessels]
  | idle =>
    simp only [halt, state]
    split
    · rw [becomeHalted_vessels]
    · rfl
  | halted => simp only [halt, state]

/-- The halts of some vessels, in their order (R58). -/
def haltAll (l : List Vessel) (s : State) : State := l.foldl (fun s v => halt v false s) s

theorem haltAll_held (l : List Vessel) (s : State) (w : Vessel) :
    ((haltAll l s).vessels.get w).held = (s.vessels.get w).held := by
  induction l generalizing s with
  | nil => rfl
  | cons v l ih => exact (ih (halt v false s)).trans (halt_held ..)

theorem haltAll_plainBrews (l : List Vessel) (s : State) : (haltAll l s).plainBrews = s.plainBrews := by
  induction l generalizing s with
  | nil => rfl
  | cons v l ih => exact (ih (halt v false s)).trans (halt_plainBrews ..)

theorem Halts.rules (h : Halts v s t) (w : Vessel) : (t.seat w).rule = (s.seat w).rule := by
  by_cases e : w = v
  · rw [e, h.rule]
  · rw [h.others w e]

theorem haltAll_ruled (l : List Vessel) (s : State) : (haltAll l s).ruled = s.ruled := by
  induction l generalizing s with
  | nil => rfl
  | cons v l ih =>
    have first := halt_halts v s
    exact (ih (halt v false s)).trans (ruled_of_seats first.outer first.rules)

/-- Whether a halt leaves a sequencer as it is: IDLE in a vessel that is not FILLING (R82, R84). -/
abbrev Unhalted (s : State) (v : Vessel) : Prop :=
  (s.seqs.get v).state = .idle ∧ (s.vessels.get v).occupancy ≠ .filling

theorem Halts.seqState (h : Halts v s t) : (t.seqs.get v).state = if Unhalted s v then .idle else .halted := h.state

theorem haltAll_state (l : List Vessel) (s : State) (w : Vessel) :
    ((haltAll l s).seqs.get w).state = if w ∈ l ∧ ¬Unhalted s w then .halted else (s.seqs.get w).state := by
  induction l generalizing s with
  | nil => simp [haltAll]
  | cons v l ih =>
    have first := halt_halts v s
    have occupancy : ((halt v false s).vessels.get w).occupancy = (s.vessels.get w).occupancy :=
      congrArg Prod.snd (halt_held v false s w)
    refine (ih (halt v false s)).trans ?_
    by_cases e : w = v
    · subst e
      by_cases idle : Unhalted s w
      · simp [first.seqState, occupancy, idle]
      · simp [first.seqState, idle]
    · have there : ((halt v false s).seqs.get w).state = (s.seqs.get w).state := congrArg Seat.state (first.others w e)
      simp [there, occupancy, e]

/-! ### The brew (R58) -/

theorem changeBrewState_brew? (found : brew? s n = some b) (x : BrewState) (y : Subject) :
    brew? (changeBrewState n x y s) n = some { b with state := x } := by
  have brews := brews_of_still (raise_still .brewState y (some n) (.num (brewStateCode x))
    (withBrew n (fun b => { b with state := x }) s))
  have changed := brew?_withBrew (f := fun b => { b with state := x }) (fun _ => rfl) n s
  rw [found] at changed
  refine Eq.trans ?_ changed
  unfold changeBrewState brew? brewRow?
  rw [brews]

/-- The brew's sequencers halted and its cast ended, before its state changes (R58). -/
def brewStopped (b : Brew) (s : State) : State :=
  if b.state = .casting then endTrigger .abandon (haltAll b.occupied s) else haltAll b.occupied s

theorem brewStopped_works (b : Brew) (s : State) : (brewStopped b s).works = (haltAll b.occupied s).works := by
  unfold brewStopped
  split
  · exact endTrigger_works ..
  · rfl

theorem brewStopped_plainBrews (b : Brew) (s : State) : (brewStopped b s).plainBrews = s.plainBrews := by
  refine Eq.trans ?_ (haltAll_plainBrews b.occupied s)
  unfold brewStopped
  split
  · exact plainBrews_of_brews (endTrigger_brews ..)
  · rfl

theorem abandonBrew_unknown (unknown : brew? s n = none) : abandonBrew n s = (.notFound, s) := by
  simp only [abandonBrew, unknown]

theorem abandonBrew_busy (found : brew? s n = some b) (ended : b.state = .cast ∨ b.state = .abandoned) :
    abandonBrew n s = (.busy, s) := by
  simp only [abandonBrew, found, if_pos ended]

theorem abandonBrew_abandons (found : brew? s n = some b) (live : ¬(b.state = .cast ∨ b.state = .abandoned)) :
    abandonBrew n s = (.ok, changeBrewState n .abandoned (lastVessel b) (brewStopped b s)) := by
  simp only [abandonBrew, found, if_neg live]
  rfl

/-! ### The request -/

theorem serveBrewAbandon_runs {x : Result} (a : Asks rq (.brewAbandon n) s) (run : abandonBrew n (taken s) = (x, u)) :
    serveBrewAbandon rq (taken s) = answer 10 rq x [] u := by
  have carries : parseReq (taken s).stationAddress 10 rq.params = some (.brewAbandon n) := a.carries
  simp only [serveBrewAbandon, carries, doBrewAbandon, run]

/-- Settles O30: a number no row holds, a brew that is over, and one whose sequencers are halted. -/
theorem brewAbandonRequests : Obligations.BrewAbandonRequests := by
  intro n rq s a c
  refine ⟨fun unknown => ?_, fun b found => ⟨fun ended => ?_, fun notCast notAbandoned => ?_⟩⟩
  · exact answers_of (serveBrewAbandon rq) rfl a.toTakes
      (serveBrewAbandon_runs a (abandonBrew_unknown (s := taken s) unknown)) a.tells a.arbiter
  · exact answers_of (serveBrewAbandon rq) rfl a.toTakes
      (serveBrewAbandon_runs a (abandonBrew_busy (s := taken s) found ended)) a.tells a.arbiter
  · have run := serveBrewAbandon_runs a
      (abandonBrew_abandons (s := taken s) found fun ended => ended.elim notCast notAbandoned)
    let u := changeBrewState n .abandoned (lastVessel b) (brewStopped b (taken s))
    have works : (settle (answer 10 rq .ok [] u)).works = (haltAll b.occupied (taken s)).works :=
      (settled_works ..).trans ((changeBrewState_works ..).trans (brewStopped_works ..))
    refine ⟨settle (answer 10 rq .ok [] u), congrArg Host.Outcome.next ?_, replied_settled .., ?_, ?_, fun v => ?_⟩
    · exact (onRequest_takes (q := queuedOf 10 rq) (serveBrewAbandon rq) a.toTakes).trans (congrArg settle run)
    · exact (ruled_of_works works).trans (haltAll_ruled ..)
    · obtain ⟨halted, there, same⟩ := brew?_of_plainBrews (brewStopped_plainBrews b (taken s)) found
      obtain ⟨d, stands, plain⟩ := brew?_of_plainBrews (settled_plainBrews 10 rq .ok [] u)
        (changeBrewState_brew? there .abandoned (lastVessel b))
      obtain ⟨occupied, state⟩ := Brew.read_of_plain plain
      exact ⟨d, stands, state, occupied.trans (Brew.read_of_plain same).1⟩
    · have held := haltAll_held b.occupied (taken s) v
      rw [vessels_of_works works]
      refine ⟨congrArg Prod.fst held, congrArg Prod.snd held, ?_⟩
      exact (congrArg (fun x : Vessel → Seat => (x v).state) (seat_of_works works)).trans
        (haltAll_state b.occupied (taken s) v)

end Sys2Proof.Machine
end

section
/-! The request VESSEL_CLEAR (R62, R68). -/

namespace Sys2Proof.Machine

variable {s t r : State} {v w u : Vessel} {n : Nat} {b : Brew} {rq : Request}

/-! ### A vessel cleared out (R62, R68) -/

theorem ruled_of_still (h : t.still = s.still) : t.ruled = s.ruled := by
  show t.still.ruled = s.still.ruled
  rw [h]

theorem withVessel_ruled {f : VesselRec → VesselRec} (h : ∀ r, (f r).ruled = r.ruled := by intros; rfl) :
    (withVessel v f s).ruled = s.ruled := ruled_of_seats rfl fun _ => by rw [withVessel_seat h]

theorem clearOut_ruled (v : Vessel) (s : State) : (clearOut v s).ruled = s.ruled := by
  unfold clearOut becomeIdle emptyVessel
  rw [ruled_of_still (forceZero_still ..), withVessel_ruled, ruled_of_still (withSeq_still ..), withVessel_ruled]

theorem clearOut_vessels (v : Vessel) (s : State) : (clearOut v s).vessels
    = s.vessels.set v { s.vessels.get v with occupant := none, occupancy := .empty, stepLock := false } := by
  unfold clearOut emptyVessel
  rw [becomeIdle_vessels, withVessel_vessels, PerVessel.get_set_same, PerVessel.set_set]

theorem clearOut_brews (v : Vessel) (s : State) : (clearOut v s).brews = s.brews :=
  (brews_of_still (forceZero_still ..)).trans rfl

theorem clearOut_brew? (v : Vessel) (s : State) (n : Nat) : brew? (clearOut v s) n = brew? s n := by
  unfold brew? brewRow?
  rw [clearOut_brews]

theorem clearOut_state (v : Vessel) (s : State) : ((clearOut v s).seat v).state = .idle :=
  congrArg Seat.state (becomeIdle_seat_same v (emptyVessel v s))

theorem clearOut_seat_other (s : State) (h : w ≠ v) : (clearOut v s).seat w = s.seat w :=
  (becomeIdle_seat_other _ h).trans (congrFun withVessel_seat w)

/-- From `s` to `t` a vessel has been cleared: it is EMPTY and its sequencer IDLE, and no authority has changed. -/
structure Cleared (v : Vessel) (s t : State) : Prop where
  ruled     : t.ruled = s.ruled
  occupancy : (t.vessels.get v).occupancy = .empty
  occupant  : (t.vessels.get v).occupant = none
  state     : (t.seat v).state = .idle

theorem clearOut_cleared (v : Vessel) (s : State) : Cleared v s (clearOut v s) := by
  refine ⟨clearOut_ruled v s, ?_, ?_, clearOut_state v s⟩ <;> rw [clearOut_vessels, PerVessel.get_set_same]

/-- What follows at other vessels leaves the vessel cleared. -/
theorem Cleared.keep (h : Cleared v s t) (hr : r.ruled = t.ruled) (hv : r.vessels.get v = t.vessels.get v)
    (hs : (r.seat v).state = (t.seat v).state) : Cleared v s r :=
  ⟨hr.trans h.ruled, by rw [hv, h.occupancy], by rw [hv, h.occupant], hs.trans h.state⟩

theorem Cleared.of_works (h : Cleared v s t) (hw : r.works = t.works) : Cleared v s r :=
  h.keep (ruled_of_works hw) (by rw [vessels_of_works hw]) (by rw [seat_of_works hw])

/-! ### Causes noted (R76) -/

theorem causesNoted_seat_state (v w : Vessel) (s : State) : ((causesNoted v s).seat w).state = (s.seat w).state := by
  by_cases e : w = v
  · rw [e, causesNoted_seat]
  · rw [causesNoted, withSeq_seat_other _ e]

/-! ### A RESIDENT brew leaves (R68) -/

theorem leaveVessel_works (n : Nat) (v : Vessel) (s : State) : (leaveVessel n v s).works = s.works := by
  unfold leaveVessel
  simp only
  split
  · exact (changeBrewState_works ..).trans (withBrew_works ..)
  · exact withBrew_works ..

theorem leaveVessel_brew? (found : brew? s n = some b) : ∃ d, brew? (leaveVessel n v s) n = some d
    ∧ d.occupied = b.occupied.filter (· != v) ∧ d.state = if d.occupied = [] then .abandoned else b.state := by
  have left := brew?_withBrew (f := fun b => { b with occupied := b.occupied.filter (· != v) }) (fun _ => rfl) n s
  rw [found, Option.map_some] at left
  unfold leaveVessel
  simp only [left, Option.any_some]
  split
  · rename_i last
    simp only [Bool.and_eq_true, List.isEmpty_iff] at last
    exact ⟨_, changeBrewState_brew? left .abandoned (.vessel v), rfl, (if_pos last.1).symm⟩
  · rename_i goesOn
    simp only [Bool.and_eq_true, List.isEmpty_iff, bne_iff_ne, ne_eq, not_and, not_not] at goesOn
    refine ⟨_, left, rfl, ?_⟩
    split
    · rename_i empty
      exact goesOn empty
    · rfl

/-- A RESIDENT brew's vessel as it is cleared. -/
def clearResident (n : Nat) (v : Vessel) (s : State) : State := syncCauses v (leaveVessel n v (clearOut v s))

theorem clearResident_eq (n : Nat) (v : Vessel) (s : State) :
    clearResident n v s = causesNoted v (leaveVessel n v (clearOut v s)) := by
  refine syncCauses_waits (.inl ?_)
  rw [seat_of_works (leaveVessel_works ..), clearOut_state]

theorem clearResident_cleared (n : Nat) (v : Vessel) (s : State) : Cleared v s (clearResident n v s) := by
  rw [clearResident_eq]
  exact ((clearOut_cleared v s).of_works (leaveVessel_works n v _)).keep rfl rfl (causesNoted_seat_state ..)

theorem clearResident_other (n : Nat) (s : State) (h : w ≠ v) :
    (clearResident n v s).vessels.get w = s.vessels.get w ∧ (clearResident n v s).seat w = s.seat w := by
  rw [clearResident_eq]
  have works := leaveVessel_works n v (clearOut v s)
  constructor
  · show (leaveVessel n v (clearOut v s)).vessels.get w = _
    rw [vessels_of_works works, clearOut_vessels, PerVessel.get_set_other _ _ h]
  · rw [causesNoted, withSeq_seat_other _ h, seat_of_works works, clearOut_seat_other _ h]

theorem clearResident_brew? (found : brew? s n = some b) : ∃ d, brew? (clearResident n v s) n = some d
    ∧ d.occupied = b.occupied.filter (· != v) ∧ d.state = if d.occupied = [] then .abandoned else b.state := by
  rw [clearResident_eq]
  exact leaveVessel_brew? (s := clearOut v s) ((clearOut_brew? v s n).trans found)

/-! ### The wort of a DRAINING vessel counts as delivered (R68) -/

theorem advanceBrew_brew? (found : brew? s n = some b) : brew? (advanceBrew n w s) n
    = some { b with state := if b.state = .abandoned then .abandoned else brewStateIn w } := by
  unfold advanceBrew
  rw [found, Option.any_some]
  by_cases gone : b.state = .abandoned
  · rw [if_neg (by simp [gone]), if_pos gone, found, ← gone]
  · rw [if_pos (by simp [gone]), if_neg gone]
    exact changeBrewState_brew? found ..

theorem settleIn_ruled (n : Nat) (w : Vessel) (s : State) : (settleIn n w s).ruled = s.ruled := by
  unfold settleIn
  rw [ruled_of_still (withSeq_still ..), ruled_of_works (withBrew_works ..), withVessel_ruled]

theorem settleIn_brew? (found : brew? s n = some b) : brew? (settleIn n w s) n = some { b with occupied := [w] } := by
  have placed := brew?_withBrew (f := fun b => { b with occupied := [w] }) (fun _ => rfl) n s
  rw [found] at placed
  exact placed

theorem settleIn_list (found : brew? s n = some b) : ((settleIn n w s).seat w).list = some b.recipe := by
  have placed := brew?_withBrew (f := fun b => { b with occupied := [w] }) (fun _ => rfl) n s
  rw [found] at placed
  unfold settleIn
  simp only
  rw [withSeq_seat_same]
  exact congrArg (Option.map Brew.recipe) placed

theorem armIfIdle_seat (w : Vessel) (s : State) : (armIfIdle w s).seat w
    = { s.seat w with state := if (s.seat w).state = .idle then .armed else (s.seat w).state } := by
  unfold armIfIdle
  rw [withSeq_seat_same]
  unfold State.seat Seat.of
  dsimp only
  split <;> rfl

/-- What the sequencer of the destination comes to: ARMED if it was IDLE, with the brew's list (R68). -/
theorem clearSource_seat (apart : w ≠ v) (found : brew? s n = some b) :
    ((clearSource v w n s).seat w).state = (if (s.seat w).state = .idle then .armed else (s.seat w).state)
      ∧ ((clearSource v w n s).seat w).list = some b.recipe := by
  have state := (settleIn_seat n w w (clearOut v s)).1
  rw [clearOut_seat_other _ apart] at state
  have list := settleIn_list (w := w) ((clearOut_brew? v s n).trans found)
  unfold clearSource
  rw [armIfIdle_seat, seat_of_works (advanceBrew_works ..), state]
  exact ⟨rfl, list⟩

theorem clearSource_vessels (v w : Vessel) (n : Nat) (s : State) :
    (clearSource v w n s).vessels = (clearOut v s).vessels.set w
      { (clearOut v s).vessels.get w with occupant := some n, occupancy := .resident } := by
  show (advanceBrew n w (settleIn n w (clearOut v s))).vessels = _
  rw [vessels_of_works (advanceBrew_works ..), settleIn_vessels]

theorem clearSource_cleared (n : Nat) (s : State) (apart : w ≠ v) : Cleared v s (clearSource v w n s) := by
  have advanced := advanceBrew_works n w (settleIn n w (clearOut v s))
  refine (clearOut_cleared v s).keep ?_ ?_ ?_
  · unfold clearSource armIfIdle
    rw [ruled_of_still (withSeq_still ..), ruled_of_works advanced, settleIn_ruled]
  · rw [clearSource_vessels, PerVessel.get_set_other _ _ apart.symm]
  · have other : (clearSource v w n s).seat v = (advanceBrew n w (settleIn n w (clearOut v s))).seat v :=
      withSeq_seat_other _ apart.symm
    rw [other, seat_of_works advanced, (settleIn_seat n w v _).1]

theorem clearSource_brew? (found : brew? s n = some b) : ∃ d, brew? (clearSource v w n s) n = some d
    ∧ d.occupied = [w] ∧ d.state = if b.state = .abandoned then .abandoned else brewStateIn w :=
  ⟨_, advanceBrew_brew? (settleIn_brew? ((clearOut_brew? v s n).trans found)), rfl, rfl⟩

/-- With a destination that waits, its sequencer's causes are noted and no more (R68, R76). -/
theorem clearSource_noted (apart : w ≠ v) (found : brew? s n = some b)
    (waits : (s.seat w).state = .idle ∨ (s.seat w).state = .halted) :
    syncCauses w (clearSource v w n s) = causesNoted w (clearSource v w n s) := by
  refine syncCauses_waits (.inr ?_)
  rw [(clearSource_seat apart found).1]
  obtain idle | halted := waits
  · exact .inl (if_pos idle)
  · rw [halted]
    exact .inr rfl

theorem clearSource_noted_cleared (n : Nat) (s : State) (apart : w ≠ v) :
    Cleared v s (causesNoted w (clearSource v w n s)) :=
  (clearSource_cleared n s apart).keep (ruled_of_still (withSeq_still ..)) rfl (causesNoted_seat_state ..)

/-! ### The wort of a FILLING vessel counts as still in the source (R68) -/

theorem clearDestination_vessels (v u : Vessel) (n : Nat) (s : State) : (clearDestination v u n s).vessels
    = (clearOut v s).vessels.set u { (clearOut v s).vessels.get u with occupancy := .resident } := rfl

theorem clearDestination_seat (v u : Vessel) (n : Nat) (s : State) :
    (clearDestination v u n s).seat = (clearOut v s).seat := by
  unfold clearDestination
  rw [withBrew_seat, withVessel_seat]

theorem clearDestination_cleared (n : Nat) (s : State) (apart : u ≠ v) : Cleared v s (clearDestination v u n s) := by
  refine (clearOut_cleared v s).keep ?_ ?_ (by rw [clearDestination_seat])
  · unfold clearDestination
    rw [ruled_of_works (withBrew_works ..), withVessel_ruled]
  · rw [clearDestination_vessels, PerVessel.get_set_other _ _ apart.symm]

theorem clearDestination_source (n : Nat) (s : State) (apart : u ≠ v) :
    (clearDestination v u n s).vessels.get u = { s.vessels.get u with occupancy := .resident } := by
  rw [clearDestination_vessels, PerVessel.get_set_same, clearOut_vessels, PerVessel.get_set_other _ _ apart]

theorem clearDestination_brew? (found : brew? s n = some b) :
    brew? (clearDestination v u n s) n = some { b with occupied := [u] } := by
  have placed := brew?_withBrew (f := fun b => { b with occupied := [u] }) (fun _ => rfl) n (clearOut v s)
  rw [clearOut_brew?, found] at placed
  exact placed

/-! ### The rows of the table (R68) -/

/-- A cast is open in the vessel to be cleared (R68). -/
def CastBars (s : State) (v : Vessel) : Prop := v = .whirlpool ∧ castOpen s = true

theorem castOpen_iff (s : State) : castOpen s = true ↔ ∃ k, s.castMeter.record = some k ∧ k.state ≠ .closed := by
  unfold castOpen
  cases s.castMeter.record with
  | none => simp
  | some k => simp

/-- A FILLING vessel's sequencer waits for a source that is HALTED (R68). -/
def WaitsOnHalted (s : State) (v : Vessel) : Prop := (s.seqs.get v).state = .idle ∧ sourceHalted s v = true

theorem sourceHalted_iff (s : State) (v : Vessel) :
    sourceHalted s v = true ↔ ∃ u, sourceOf v = some u ∧ (s.seqs.get u).state = .halted := by
  unfold sourceHalted
  cases sourceOf v with
  | none => simp
  | some u => simp

theorem sourceOf_ne (h : sourceOf v = some u) : u ≠ v := by
  rintro rfl
  cases u <;> cases h

theorem clearVessel_empty (empty : (s.vessels.get v).occupancy = .empty) : clearVessel v s = (.ok, s) := by
  simp only [clearVessel, empty]

section
variable (occupant : (s.vessels.get v).occupant = some n)
include occupant

theorem clearVessel_resident (resident : (s.vessels.get v).occupancy = .resident)
    (halted : (s.seqs.get v).state = .halted) (free : ¬CastBars s v) :
    clearVessel v s = (.ok, clearResident n v s) := by
  simp only [clearVessel, resident, occupantOf, occupant]
  exact if_neg fun x => x.elim free (not_not_intro halted)

theorem clearVessel_draining (draining : (s.vessels.get v).occupancy = .draining)
    (halted : (s.seqs.get v).state = .halted) (hd : destinationOf v = some w) :
    clearVessel v s = (.ok, syncCauses w (clearSource v w n s)) := by
  simp only [clearVessel, draining, occupantOf, occupant, hd]
  exact if_pos halted

theorem clearVessel_filling (filling : (s.vessels.get v).occupancy = .filling)
    (waits : (s.seqs.get v).state = .halted ∨ WaitsOnHalted s v) (free : ¬CastBars s v) (hs : sourceOf v = some u) :
    clearVessel v s = (.ok, clearDestination v u n s) := by
  simp only [clearVessel, filling, occupantOf, occupant, hs]
  exact (if_neg free).trans (if_pos waits)

end

/-- The rows that answer BUSY: a cast is open, or neither the vessel's sequencer nor, with a FILLING vessel that waits,
its source's is HALTED. -/
theorem clearVessel_busy (occupied : (s.vessels.get v).occupancy ≠ .empty)
    (h : CastBars s v
      ∨ (s.seqs.get v).state ≠ .halted ∧ ((s.vessels.get v).occupancy = .filling → ¬WaitsOnHalted s v)) :
    clearVessel v s = (.busy, s) := by
  cases occupant : (s.vessels.get v).occupant with
  | none =>
    cases occupancy : (s.vessels.get v).occupancy with
    | empty => exact absurd occupancy occupied
    | resident | draining | filling => simp only [clearVessel, occupancy, occupantOf, occupant]
  | some n =>
    cases occupancy : (s.vessels.get v).occupancy with
    | empty => exact absurd occupancy occupied
    | resident =>
      simp only [clearVessel, occupancy, occupantOf, occupant]
      exact if_pos (h.imp_right And.left)
    | draining =>
      simp only [clearVessel, occupancy, occupantOf, occupant]
      split
      · rename_i w hd
        refine if_neg fun halted => ?_
        obtain ⟨rfl, _⟩ | ⟨going, _⟩ := h
        · cases hd
        · exact going halted
      · rfl
    | filling =>
      simp only [clearVessel, occupancy, occupantOf, occupant]
      split
      · by_cases bars : CastBars s v
        · exact if_pos bars
        · obtain ⟨going, source⟩ := h.resolve_left bars
          exact (if_neg bars).trans (if_neg fun x => x.elim going (source occupancy))
      · rfl

/-! ### The request -/

theorem serveVesselClear_runs {x : Result} (a : Asks rq (.vesselClear v) s) (run : clearVessel v (taken s) = (x, r)) :
    serveVesselClear rq (taken s) = answer 13 rq x [] r := by
  have carries : parseReq (taken s).stationAddress 13 rq.params = some (.vesselClear v) := a.carries
  simp only [serveVesselClear, carries, doVesselClear, run]

theorem vesselClear_answers {x : Result} (a : Asks rq (.vesselClear v) s)
    (run : clearVessel v (taken s) = (x, taken s)) : Answers (.vesselClear rq) 13 rq x [] s (taken s) :=
  answers_of (serveVesselClear rq) rfl a.toTakes (serveVesselClear_runs a run) a.tells a.arbiter

/-- What a VESSEL_CLEAR that clears leaves once the blocks have settled. -/
structure ClearSettled (rq : Request) (v : Vessel) (s r t : State) : Prop where
  exec     : Machine.exec (.vesselClear rq) s = .next t
  replied  : Replied 13 rq .ok [] t
  ruled    : t.ruled = (taken s).ruled
  cleared  : (t.vessels.get v).occupancy = .empty ∧ (t.vessels.get v).occupant = none ∧ (t.seqs.get v).state = .idle
  vessels  : t.vessels = r.vessels
  seat     : t.seat = r.seat
  brews    : t.plainBrews = r.plainBrews

theorem vesselClear_settles (a : Asks rq (.vesselClear v) s) (run : clearVessel v (taken s) = (.ok, r))
    (cleared : Cleared v (taken s) r) : ∃ t, ClearSettled rq v s r t := by
  have works := settled_works 13 rq .ok [] r
  obtain ⟨ruled, occupancy, occupant, state⟩ := cleared.of_works works
  refine ⟨_, congrArg Host.Outcome.next ?_, replied_settled 13 rq .ok [] r, ruled, ⟨occupancy, occupant, state⟩,
    vessels_of_works works, seat_of_works works, settled_plainBrews ..⟩
  exact (onRequest_takes (q := queuedOf 13 rq) (serveVesselClear rq) a.toTakes).trans
    (congrArg settle (serveVesselClear_runs a run))

theorem ClearSettled.brew {d : Brew} (h : ClearSettled rq v s r t) (found : brew? r n = some d) :
    ∃ e, brew? t n = some e ∧ e.occupied = d.occupied ∧ e.state = d.state := by
  obtain ⟨e, stands, same⟩ := brew?_of_plainBrews h.brews found
  exact ⟨e, stands, Brew.read_of_plain same⟩

/-- Settles O33: an EMPTY vessel, the rows that answer BUSY, and the three ways a vessel is cleared. -/
theorem vesselClearRequests : Obligations.VesselClearRequests := by
  intro v rq s a c r q casting cleared
  have bars : CastBars (taken s) v ↔ casting := and_congr_right fun _ => castOpen_iff (taken s)
  have source : sourceHalted (taken s) v = true ↔ ∃ u, sourceOf v = some u ∧ (s.seqs.get u).state = .halted :=
    sourceHalted_iff ..
  refine ⟨fun empty => ?_, fun occupied barred => ?_, fun occupied going => ?_, fun filling idle others => ?_,
    fun n b occupant found free => ⟨fun resident halted => ?_, fun w draining halted hd waits => ?_,
      fun u filling hs waits => ?_⟩⟩
  · exact vesselClear_answers a (clearVessel_empty (s := taken s) empty)
  · exact vesselClear_answers a (clearVessel_busy (s := taken s) occupied (.inl (bars.2 barred)))
  · refine vesselClear_answers a (clearVessel_busy (s := taken s) occupied (.inr ⟨fun halted => ?_, fun _ waits => ?_⟩))
    · rw [show q = .halted from halted] at going
      simp at going
    · rw [show q = .idle from waits.1] at going
      simp at going
  · refine vesselClear_answers a (clearVessel_busy (s := taken s) (v := v) ?_ (.inr ⟨?_, fun _ waits => ?_⟩))
    · rw [show ((taken s).vessels.get v).occupancy = .filling from filling]
      nofun
    · rw [show ((taken s).seqs.get v).state = .idle from idle]
      nofun
    · obtain ⟨u, hs, halted⟩ := source.1 waits.2
      exact others u hs halted
  · have run := clearVessel_resident (s := taken s) occupant resident halted (mt bars.1 free)
    obtain ⟨t, h⟩ := vesselClear_settles a run (clearResident_cleared n v (taken s))
    obtain ⟨d, stands, occupied, state⟩ := clearResident_brew? (s := taken s) (v := v) found
    obtain ⟨e, there, same, unmoved⟩ := h.brew stands
    refine ⟨t, h.exec, ⟨h.replied, h.ruled, h.cleared⟩, ⟨e, there, same.trans occupied, ?_⟩, fun w apart => ?_⟩
    · rw [same]
      exact unmoved.trans state
    · obtain ⟨vessel, seat⟩ := clearResident_other n (taken s) apart
      rw [h.vessels, vessel]
      exact ⟨rfl, rfl, congrArg Seat.state ((congrFun h.seat w).trans seat)⟩
  · have apart := destinationOf_ne hd
    obtain ⟨state, list⟩ := clearSource_seat (s := taken s) (v := v) apart found
    have run := clearVessel_draining (s := taken s) occupant draining halted hd
    rw [clearSource_noted (s := taken s) apart found waits] at run
    obtain ⟨t, h⟩ := vesselClear_settles a run (clearSource_noted_cleared n (taken s) apart)
    obtain ⟨d, stands, occupied, advanced⟩ := clearSource_brew? (s := taken s) (v := v) (w := w) found
    obtain ⟨e, there, same, unmoved⟩ := h.brew (d := d) stands
    have vessel : t.vessels.get w
        = { (clearOut v (taken s)).vessels.get w with occupant := some n, occupancy := .resident } := by
      refine (congrArg (PerVessel.get · w) (h.vessels.trans (clearSource_vessels v w n (taken s)))).trans ?_
      exact PerVessel.get_set_same ..
    have settled : t.seat w = _ := (congrFun h.seat w).trans (causesNoted_seat ..)
    have becomes : (t.seqs.get w).state = if (s.seqs.get w).state = .idle then .armed else (s.seqs.get w).state :=
      (congrArg Seat.state settled).trans state
    refine ⟨t, h.exec, ⟨h.replied, h.ruled, h.cleared⟩, ?_, ?_, fun idle => ?_, fun stopped => ?_, ?_, e, there,
      same.trans occupied, unmoved.trans advanced⟩
    · rw [vessel]
    · rw [vessel]
    · rw [becomes, if_pos idle]
    · rw [becomes, stopped]
      rfl
    · exact (congrArg Seat.list settled).trans list
  · have apart := sourceOf_ne hs
    have halts : (s.seqs.get v).state = .halted ∨ WaitsOnHalted (taken s) v :=
      waits.imp_right fun ⟨idle, halted⟩ => ⟨idle, source.2 ⟨u, hs, halted⟩⟩
    have run := clearVessel_filling (s := taken s) occupant filling halts (mt bars.1 free) hs
    obtain ⟨t, h⟩ := vesselClear_settles a run (clearDestination_cleared n (taken s) apart)
    obtain ⟨e, there, occupied, state⟩ := h.brew (clearDestination_brew? (s := taken s) (v := v) (u := u) found)
    have here := clearDestination_source n (taken s) apart
    refine ⟨t, h.exec, ⟨h.replied, h.ruled, h.cleared⟩, ?_, ?_, ?_, e, there, occupied, state⟩
    · rw [h.vessels, here]
      rfl
    · rw [h.vessels, here]
    · have seat := congrFun (h.seat.trans (clearDestination_seat v u n (taken s))) u
      exact congrArg Seat.state (seat.trans (clearOut_seat_other _ apart))

end Sys2Proof.Machine
end

section
/-! The start of a sequencer's list, and the requests VESSEL_START and GROUP_START (R49, R78, R80, R81). -/

namespace Sys2Proof.Machine

variable {s t u : State} {v w : Vessel} {g n : Nat} {l : List Vessel} {rq : Request}

/-! ### One list started (R49, R78, R80) -/

theorem suspending_of_ruled (h : t.ruled = s.ruled) : Suspending t v ↔ Suspending s v := by
  have outer : t.outer = s.outer := congrArg (fun u : State => { u with vessels := PerVessel.all .cleared }) h
  have rule (u : State) : (u.seat v).rule = u.ruled.vessels.get v := by cases v <;> rfl
  exact suspending_congr outer (by rw [rule, rule, h])

theorem startList_ruled (v : Vessel) (s : State) : (startList v s).ruled = s.ruled :=
  (startAt_runs v 0 (slotsOfVessel v s)).ruled.trans (slotsOfVessel_ruled v s)

/-- A start empties the slots of its vessel, and no other (R49). -/
theorem slotHold_startList (v : Vessel) (s : State) (hn : n < 4) :
    slotHold (startList v s) n = (slotHold s n).filter fun h => !(h.vessel == v) := by
  have emptied : slotHold (slotsOfVessel v s) n = (slotHold s n).filter fun h => !(h.vessel == v) :=
    slotHold_emptySlots _ s hn
  have moves := startAt_anew v 0 (slotsOfVessel v s)
  rw [← emptied]
  ext h
  refine ⟨moves.freed n h, fun held => moves.kept n h held fun same => ?_⟩
  rw [emptied, Option.filter_eq_some_iff] at held
  simp [same] at held

theorem startList_started (v : Vessel) (s : State) : Started [v] s (startList v s) := by
  have seat : (slotsOfVessel v s).seat = s.seat := emptySlots_seat ..
  have now : causesNow (slotsOfVessel v s) v = causesNow s v :=
    causesNow_congr (emptySlots_outer ..) (by rw [seat])
  have others (w : Vessel) (apart : w ∉ [v]) : (startList v s).seat w = s.seat w :=
    ((startAt_runs v 0 (slotsOfVessel v s)).others w (by simpa using apart)).trans (congrFun seat w)
  refine ⟨fun w one cause => ?_, fun w one free => ?_, fun w apart => ?_, fun n hn => ?_, startList_ruled v s⟩
  · obtain rfl := List.mem_singleton.1 one
    have any : (causesNow (slotsOfVessel w s) w).any = true := by rw [now, causesNow_any_iff]; exact cause
    have state := beginStep_state w 0 (slotsOfVessel w s)
    rw [any, if_pos rfl] at state
    rw [startList, startAt_held any]
    exact ⟨state, beginStep_position ..⟩
  · obtain rfl := List.mem_singleton.1 one
    obtain ⟨going, p, position, _⟩ := startAt_goes (n := 0) (now ▸ causesNow_any_eq_false free)
    exact ⟨going, Option.isSome_of_eq_some position⟩
  · exact ⟨congrArg Seat.state (others w apart), congrArg Seat.position (others w apart)⟩
  · rw [slotHold_startList v s hn]
    congr 1
    funext h
    simp [Bool.beq_eq_decide_eq]

/-! ### Several lists started (R81) -/

/-- What a start says of its end state turns on no more than the works laws keep. -/
theorem Started.of_works (h : Started l s t) (hw : u.works = t.works) : Started l s u := by
  have state (w : Vessel) : (u.seqs.get w).state = (t.seqs.get w).state :=
    congrArg (fun x : Vessel → Seat => (x w).state) (seat_of_works hw)
  have position (w : Vessel) : (u.seqs.get w).position = (t.seqs.get w).position :=
    congrArg (fun x : Vessel → Seat => (x w).position) (seat_of_works hw)
  obtain ⟨held, going, others, slots, ruled⟩ := h
  simp only [← state, ← position] at held going others
  simp only [← slotHold_congr (slots_of_works hw)] at slots
  exact ⟨held, going, others, slots, (ruled_of_works hw).trans ruled⟩

/-- One vessel is started, and then others. -/
theorem Started.cons (first : Started [v] s t) (rest : Started l t u) (apart : v ∉ l) : Started (v :: l) s u := by
  have cause (w : Vessel) : Suspending t w ↔ Suspending s w := suspending_of_ruled first.ruled
  have stays := rest.others v apart
  refine ⟨fun w hw suspending => ?_, fun w hw free => ?_, fun w hw => ?_, fun n hn => ?_,
    rest.ruled.trans first.ruled⟩
  · obtain rfl | later := List.mem_cons.1 hw
    · rw [stays.1, stays.2]
      exact first.held w (by simp) suspending
    · exact rest.held w later ((cause w).2 suspending)
  · obtain rfl | later := List.mem_cons.1 hw
    · rw [stays.1, stays.2]
      exact first.going w (by simp) free
    · exact rest.going w later (mt (cause w).1 free)
  · rw [List.mem_cons, not_or] at hw
    obtain ⟨state, position⟩ := rest.others w hw.2
    obtain ⟨before, place⟩ := first.others w (by simpa using hw.1)
    exact ⟨state.trans before, position.trans place⟩
  · rw [rest.slots n hn, first.slots n hn, Option.filter_filter]
    congr 1
    funext h
    simp

/-- The lists of some vessels are started, in their order (R81). -/
def startAll (l : List Vessel) (s : State) : State := l.foldl (fun s v => startList v s) s

theorem startAll_started (hl : l.Nodup) (s : State) : Started l s (startAll l s) := by
  induction l generalizing s with
  | nil =>
    refine ⟨nofun, nofun, fun _ _ => ⟨rfl, rfl⟩, fun n _ => ?_, rfl⟩
    show slotHold s n = (slotHold s n).filter fun _ => true
    cases slotHold s n <;> rfl
  | cons v l ih =>
    obtain ⟨apart, rest⟩ := List.nodup_cons.1 hl
    exact (startList_started v s).cons (ih rest (startList v s)) apart

/-! ### VESSEL_START (R80) -/

/-- A sequencer that can be started: ARMED, or HALTED and to be re-run (R80). -/
def Startable (s : State) (v : Vessel) : Prop :=
  (s.seqs.get v).state = .armed ∨ ((s.seqs.get v).state = .halted ∧ canRerun s v = true)

/-- The occupant of a vessel is ABANDONED (R80). -/
def HoldsAbandoned (s : State) (v : Vessel) : Prop :=
  ∃ n b, (s.vessels.get v).occupant = some n ∧ brew? s n = some b ∧ b.state = .abandoned

theorem canRerun_iff (s : State) (v : Vessel) :
    canRerun s v = true ↔ (s.seqs.get v).list ≠ none ∧ ¬HoldsAbandoned s v := by
  have abandoned : ((occupantBrew? s v).any fun b => b.state == .abandoned) = true ↔ HoldsAbandoned s v := by
    simp only [occupantBrew?, Option.any_eq_true, Option.bind_eq_some_iff, beq_iff_eq]
    constructor
    · rintro ⟨b, ⟨n, occupant, found⟩, gone⟩
      exact ⟨n, b, occupant, found, gone⟩
    · rintro ⟨n, b, occupant, found, gone⟩
      exact ⟨b, ⟨n, occupant, found⟩, gone⟩
  unfold canRerun
  rw [Bool.and_eq_true, Bool.not_eq_true', ← Bool.not_eq_true, abandoned, Option.isSome_iff_ne_none]

theorem doVesselStart_barred (barred : CastBars s v) : doVesselStart v rq s = refuseStart v .busy rq s :=
  if_pos barred

theorem doVesselStart_starts (free : ¬CastBars s v) (ready : Startable s v) :
    doVesselStart v rq s = answer 14 rq .ok [] (startList v s) := by
  refine (if_neg free).trans ?_
  obtain armed | ⟨halted, rerun⟩ := ready
  · simp only [armed]
  · simp only [halted, if_pos rerun]

theorem doVesselStart_refuses (free : ¬CastBars s v) (unready : ¬Startable s v) :
    doVesselStart v rq s = refuseStart v .notArmed rq s := by
  refine (if_neg free).trans ?_
  cases state : (s.seqs.get v).state with
  | armed => exact absurd (.inl state) unready
  | halted => exact if_neg fun rerun => unready (.inr ⟨state, rerun⟩)
  | idle | running | suspended | blocked => rfl

theorem serveVesselStart_asked (a : Asks rq (.vesselStart v) s) :
    serveVesselStart rq (taken s) = doVesselStart v rq (taken s) := by
  have carries : parseReq (taken s).stationAddress 14 rq.params = some (.vesselStart v) := a.carries
  simp only [serveVesselStart, carries]

/-- A start refused is answered behind its START_REFUSED (R80). -/
theorem refuseStart_answers {r : Result} (a : Asks rq (.vesselStart v) s)
    (run : doVesselStart v rq (taken s) = refuseStart v r rq (taken s)) :
    Answers (.vesselStart rq) 14 rq r [] s
      (raise .startRefused (.vessel v) (s.vessels.get v).occupant (.num (resultCode r)) (taken s)) :=
  answers_of (serveVesselStart rq) rfl a.toTakes ((serveVesselStart_asked a).trans run)
    ((raise_tells ..).trans a.tells) (by rw [raise_loop]; exact a.arbiter)

/-- Settles O34: the cast that bars the whirlpool, the sequencer that cannot start, and the one that does. -/
theorem vesselStartRequests : Obligations.VesselStartRequests := by
  intro v rq s a c q casting abandoned refused
  have bars : CastBars (taken s) v ↔ casting := and_congr_right fun _ => castOpen_iff (taken s)
  have ready : Startable (taken s) v ↔ q.state = .armed ∨ (q.state = .halted ∧ q.list ≠ none ∧ ¬abandoned) :=
    or_congr_right (and_congr_right fun _ => canRerun_iff (taken s) v)
  refine ⟨fun barred => ?_, fun free notArmed halted => ?_, fun free startable => ?_⟩
  · exact refuseStart_answers a (doVesselStart_barred (bars.2 barred))
  · refine refuseStart_answers a (doVesselStart_refuses (mt bars.1 free) fun startable => ?_)
    obtain armed | ⟨stopped, list, live⟩ := ready.1 startable
    · exact notArmed armed
    · exact (halted stopped).elim list live
  · have run := doVesselStart_starts (rq := rq) (mt bars.1 free) (ready.2 startable)
    refine ⟨settle (answer 14 rq .ok [] (startList v (taken s))), congrArg Host.Outcome.next ?_, replied_settled ..,
      (startList_started v (taken s)).of_works (settled_works ..)⟩
    exact (onRequest_takes (q := queuedOf 14 rq) (serveVesselStart rq) a.toTakes).trans
      (congrArg settle ((serveVesselStart_asked a).trans run))

/-! ### GROUP_START (R81) -/

theorem serveGroupStart_asked (a : Asks rq (.groupStart g) s) :
    serveGroupStart rq (taken s) = doGroupStart g rq (taken s) := by
  have carries : parseReq (taken s).stationAddress 15 rq.params = some (.groupStart g) := a.carries
  simp only [serveGroupStart, carries]

theorem doGroupStart_eq (g : Nat) (rq : Request) (s : State) :
    doGroupStart g rq s = answer 15 rq .ok
      (listField (fun v => num 1 (vesselNumber v)) (vessels.filter (inGroup s g)))
      (startAll (vessels.filter (inGroup s g)) s) := rfl

/-- A group number above 3 is out of range (R81, R171). -/
theorem parseReq_groupStart_beyond (own : Byte) {b : Byte} (h : 3 < b.toNat) : parseReq own 15 [b] = none := by
  have bad : Req.ok own (.groupStart (byteAt [b] 0)) = false := decide_eq_false (Nat.not_le.2 h)
  exact (if_pos rfl).trans (Option.filter_some_neg bad)

theorem serveGroupStart_malformed (h : parseReq s.stationAddress 15 rq.params = none) :
    serveGroupStart rq s = answer 15 rq .badRequest [] s := by
  simp only [serveGroupStart, h]

/-- Settles O35: the group's ARMED sequencers started, in their order, and a group that does not exist. -/
theorem groupStartRequests : Obligations.GroupStartRequests := by
  constructor
  · intro g rq s a c started listed
    have run : serveGroupStart rq (taken s) = answer 15 rq .ok listed (startAll started (taken s)) :=
      (serveGroupStart_asked a).trans (doGroupStart_eq ..)
    refine ⟨fun none => ?_, settle (answer 15 rq .ok listed (startAll started (taken s))),
      congrArg Host.Outcome.next ?_, replied_settled .., ?_, ?_⟩
    · rw [show listed = num 1 0 by simp [listed, none], none] at run
      exact answers_of (serveGroupStart rq) rfl a.toTakes run a.tells a.arbiter
    · exact (onRequest_takes (q := queuedOf 15 rq) (serveGroupStart rq) a.toTakes).trans (congrArg settle run)
    · exact (startAll_started (List.Nodup.filter _ (by decide)) (taken s)).of_works (settled_works ..)
    · exact settle_quiet (answer_quiet _ _ _ _ (foldl_quiet _ (fun _ v h => startList_quiet v h) _
        ((EventsFollow.refl s).of_events rfl)))
  · intro n rq s takes params beyond
    exact answers_of (serveGroupStart rq) rfl takes
      (serveGroupStart_malformed (s := taken s) (by rw [params]; exact parseReq_groupStart_beyond _ beyond))
      takes.tells takes.arbiter

end Sys2Proof.Machine
end

section
/-! The request CONTINUE (R66, R83, R102). -/

namespace Sys2Proof.Machine

variable {s : State} {v : Vessel} {st : StepRow} {rq : Request}

/-! ### The effect that the REPLY carries (R83) -/

theorem continueSeq_effect_none (h : ∀ st, currentStep s v = some st →
    st.kind ≠ .boil ∧ (st.kind = .wait ∨ st.kind = .transfer → (s.seqs.get v).phase ≠ .inEffect)) :
    (continueSeq v s).1 = .none := by
  unfold continueSeq
  cases hst : currentStep s v with
  | none => rfl
  | some st =>
    obtain ⟨noBoil, notYet⟩ := h st hst
    simp only
    cases kind : st.kind with
    | wait => simp only [if_neg (notYet (.inl kind))]
    | transfer => simp only [if_neg (notYet (.inr kind))]
    | boil => exact absurd kind noBoil
    | hold | ramp | drive | cast => rfl

theorem continueSeq_effect_boil (h : currentStep s v = some st) (kind : st.kind = .boil) :
    (continueSeq v s).1 = .boil := by
  unfold continueSeq
  simp only [h, kind]

theorem continueSeq_effect_wait (h : currentStep s v = some st) (kind : st.kind = .wait)
    (phase : (s.seqs.get v).phase = .inEffect) : (continueSeq v s).1 = .waitEnded := by
  unfold continueSeq
  simp only [h, kind, phase, if_true]

theorem continueSeq_effect_transfer (h : currentStep s v = some st) (kind : st.kind = .transfer)
    (phase : (s.seqs.get v).phase = .inEffect) : (continueSeq v s).1 = .transferEnded := by
  unfold continueSeq
  simp only [h, kind, phase, if_true]

/-! ### The request -/

theorem serveContinueStep_asked (a : Asks rq (.continueStep v) s) :
    serveContinueStep rq (taken s) = answer 17 rq .ok (num 1 (continueEffectCode (continueSeq v (taken s)).1))
      (continueSeq v (taken s)).2 := by
  have carries : parseReq (taken s).stationAddress 17 rq.params = some (.continueStep v) := a.carries
  simp only [serveContinueStep, carries, doContinue]

/-- A CONTINUE that changes nothing answers with its effect alone. -/
theorem continueStep_answers {e : ContinueEffect} (a : Asks rq (.continueStep v) s)
    (effect : (continueSeq v (taken s)).1 = e) (same : (continueSeq v (taken s)).2 = taken s) :
    Answers (.continueStep rq) 17 rq .ok (num 1 (continueEffectCode e)) s (taken s) := by
  have run := serveContinueStep_asked a
  rw [effect, same] at run
  exact answers_of (serveContinueStep rq) rfl a.toTakes run a.tells a.arbiter

/-- Any other leaves what the sequencer and the Boil Unit make of it, once the blocks have settled. -/
theorem continueStep_settles {e : ContinueEffect} (a : Asks rq (.continueStep v) s)
    (effect : (continueSeq v (taken s)).1 = e) :
    ∃ t, exec (.continueStep rq) s = .next t ∧ Replied 17 rq .ok (num 1 (continueEffectCode e)) t
      ∧ t.works = (continueSeq v (taken s)).2.works ∧ t.ledger = (continueSeq v (taken s)).2.ledger := by
  have run := serveContinueStep_asked a
  rw [effect] at run
  refine ⟨_, congrArg Host.Outcome.next ?_, replied_settled .., settled_works ..,
    (settle_ledger _).trans (ledger_of_bare (answer_bare ..))⟩
  exact (onRequest_takes (q := queuedOf 17 rq) (serveContinueStep rq) a.toTakes).trans (congrArg settle run)

/-- Settles O37: nowhere to go on, then a BOIL with and without a pending addition, a WAIT and a TRANSFER. -/
theorem continueRequests : Obligations.ContinueRequests := by
  intro v rq s a c q
  refine ⟨fun nothing => ?_, fun st hst => ⟨fun kind idle => ?_, fun i n b kind pending occupant brew => ?_,
    fun pos recipe kind phase position list => ?_, fun n w kind phase occupant destination free => ?_⟩⟩
  · exact continueStep_answers a (continueSeq_effect_none (s := taken s) nothing)
      (continueSeq_nothing (s := taken s) nothing)
  · exact continueStep_answers a (continueSeq_effect_boil (s := taken s) hst kind)
      ((continueSeq_boil (s := taken s) hst kind).trans (boilContinue_idle (s := taken s) idle))
  · obtain ⟨t, run, replied, works, ledger⟩ :=
      continueStep_settles a (continueSeq_effect_boil (s := taken s) hst kind)
    rw [continueSeq_boil (s := taken s) hst kind] at works ledger
    have walk : t.walk = (none, none, i + 1) :=
      (congrArg Prod.fst ledger).trans (boilContinue_walk (s := taken s) pending occupant brew)
    injection walk with resolved rest
    injection rest with stopped moved
    have kept := works.trans (boilContinue_works _)
    exact ⟨t, run, replied, ruled_of_works kept, resolved, stopped, moved, fun w =>
      congrArg (fun x : Vessel → Seat => (x w).state) (seat_of_works kept)⟩
  · obtain ⟨t, run, replied, works, _⟩ :=
      continueStep_settles a (continueSeq_effect_wait (s := taken s) hst kind phase)
    rw [continueSeq_wait (s := taken s) hst kind phase] at works
    exact ⟨t, run, replied, (completeStep_stepsOn (s := taken s) position list).of_works works⟩
  · obtain ⟨t, run, replied, works, _⟩ :=
      continueStep_settles a (continueSeq_effect_transfer (s := taken s) hst kind phase)
    obtain ⟨ruled, ⟨empty, left, idle⟩, arrived, halted, held, going⟩ :=
      (completeTransfer_handsOver (s := taken s) occupant destination free).of_works
        (works.trans (continueSeq_transfer (s := taken s) hst kind phase))
    exact ⟨t, run, replied, ruled, empty, left, idle, arrived, halted, held, going⟩

end Sys2Proof.Machine
end

section
/-! What a halt leaves of a sequencer's record, and the request VESSEL_HALT (R75, R82, R84, R94). -/

namespace Sys2Proof.Machine

variable {s t : State} {v w : Vessel} {rq : Request}

/-! ### What the offers of a sequencer leave of its record (R74, R93) -/

/-- A sequencer's record with what its offers leave in it set aside. -/
def Sequencer.unoffered (q : Sequencer) : Sequencer := { q with unsent := [], refreshTimer := none, noPoint := false }

def State.unoffered (s : State) (v : Vessel) : Sequencer := (s.seqs.get v).unoffered

theorem unoffered_of_seqs (h : t.seqs = s.seqs) (v : Vessel) : t.unoffered v = s.unoffered v := by
  unfold State.unoffered
  rw [h]

theorem seqs_of_bare (h : t.bare = s.bare) : t.seqs = s.seqs := by
  show t.bare.seqs = s.bare.seqs
  rw [h]

theorem unoffered_of_works (h : t.works = s.works) (v : Vessel) : t.unoffered v = s.unoffered v := by
  have same (u : State) : u.works.unoffered v = u.unoffered v := by cases v <;> rfl
  rw [← same t, h, same]

theorem withSeq_unoffered (v : Vessel) (f : Sequencer → Sequencer) (s : State) :
    (withSeq v f s).unoffered v = (f (s.seqs.get v)).unoffered := by
  rw [State.unoffered, withSeq_seqs, PerVessel.get_set_same]

theorem seqOffer_unoffered (v : Vessel) (u : UnsentOffer) (s : State) :
    (seqOffer v u s).2.unoffered v = s.unoffered v := by
  rw [seqOffer_eq, withSeq_unoffered]
  exact unoffered_of_seqs (seqs_of_bare (offerDrive_bare ..)) v

theorem stepDrive_unoffered (v : Vessel) (u : UnsentOffer) (s : State) :
    (stepDrive v u s).2.unoffered v = s.unoffered v := by
  rw [stepDrive_eq]
  simp only
  split
  · rw [withSeq_unoffered]
    exact seqOffer_unoffered ..
  · exact seqOffer_unoffered ..

theorem transferDrive_unoffered (v : Vessel) (r : Option Nat) (d : Nat) (s : State) :
    (transferDrive v r d s).unoffered v = s.unoffered v := by
  unfold transferDrive
  split
  · exact stepDrive_unoffered ..
  · rfl

theorem transferOff_unoffered (v : Vessel) (st : StepRow) (s : State) :
    (transferOff v st s).unoffered v = s.unoffered v :=
  (transferDrive_unoffered ..).trans (transferDrive_unoffered ..)

/-- A demand offered, taken or refused, is the last one (R93). -/
theorem offerHeat_unoffered (v : Vessel) (d : Nat) (s : State) :
    (offerHeat v d s).unoffered v = { s.unoffered v with lastDemand := d } := by
  have noted : (withSeq v (fun q => { q with lastDemand := d }) s).unoffered v
      = { s.unoffered v with lastDemand := d } := withSeq_unoffered ..
  unfold offerHeat
  simp only
  split
  · split
    · rw [withSeq_unoffered]
      exact (seqOffer_unoffered ..).trans noted
    · exact (seqOffer_unoffered ..).trans noted
  · exact noted

/-- A vessel's heat demand forced to 0, if it has a heat point (R94). -/
def Sequencer.zeroed (v : Vessel) (q : Sequencer) : Sequencer :=
  if Machine.heated v then { q with lastDemand := 0, zeroForced := true } else q

theorem forceZero_unoffered (v : Vessel) (s : State) : (forceZero v s).unoffered v = (s.unoffered v).zeroed v := by
  unfold forceZero Sequencer.zeroed
  split
  · rw [offerHeat_unoffered, withSeq_unoffered]
    rfl
  · rfl

/-! ### What a halt leaves (R75, R82) -/

theorem emptySlots_seqs (p : Hold → Bool) (s : State) : (emptySlots p s).seqs = s.seqs := by
  have one (i : Nat) (s : State) : (emptySlot p s i).seqs = s.seqs := by
    unfold emptySlot
    split
    · split
      · exact (seqs_of_bare (raiseVessel_bare ..)).trans rfl
      · rfl
    · rfl
  unfold emptySlots
  generalize [0, 1, 2, 3] = is
  induction is generalizing s with
  | nil => rfl
  | cons i is ih => rw [List.foldl_cons, ih, one]

theorem endStep_seqs (v : Vessel) (s : State) : (endStep v s).seqs = s.seqs := by
  unfold endStep
  simp only
  split
  · exact emptySlots_seqs ..
  · rfl

theorem haltStep_unoffered (v : Vessel) (s : State) : (haltStep v s).unoffered v = s.unoffered v := by
  have ended := unoffered_of_seqs (endStep_seqs v s) v
  rw [unoffered_of_works (haltStep_works v s), stepCut]
  split
  · split
    · exact (transferOff_unoffered ..).trans ended
    · exact ended
  · exact ended

/-- A sequencer's record HALTED (R82, R94). -/
def Sequencer.stopped (v : Vessel) (now : LoopTime) (q : Sequencer) : Sequencer :=
  { (q.stopHold now).dropStepFrame with state := .halted, position := none, blocked := none }.zeroed v

/-- The list, the setpoint, the integral and the causes stay; the step and its blocked reason go, and the heat demand
is 0. -/
theorem Sequencer.stopped_fields (v : Vessel) (now : LoopTime) (q : Sequencer) :
    ((q.stopped v now).list = q.list ∧ (q.stopped v now).setpoint = q.setpoint
        ∧ (q.stopped v now).integral = q.integral ∧ (q.stopped v now).causes = q.causes)
      ∧ (q.stopped v now).blocked = none
      ∧ (Machine.heated v = true → (q.stopped v now).lastDemand = 0 ∧ (q.stopped v now).zeroForced = true) := by
  unfold Sequencer.stopped Sequencer.zeroed Sequencer.stopHold
  split <;> split <;> simp_all [Sequencer.dropStepFrame]

theorem becomeHalted_unoffered (v : Vessel) (s : State) :
    (becomeHalted v s).unoffered v = ((s.seqs.get v).stopped v s.loopTime).unoffered := by
  unfold becomeHalted Sequencer.stopped
  rw [forceZero_unoffered, withSeq_unoffered]
  unfold Sequencer.zeroed
  split <;> rfl

/-- The record stopped turns on what the offers leave alone. -/
theorem Sequencer.stopped_congr {q p : Sequencer} (h : p.unoffered = q.unoffered) (v : Vessel) (now : LoopTime) :
    (p.stopped v now).unoffered = (q.stopped v now).unoffered := by
  have read (q : Sequencer) : (q.stopped v now).unoffered = (q.unoffered.stopped v now).unoffered := by
    unfold Sequencer.stopped Sequencer.zeroed Sequencer.stopHold
    rw [show q.unoffered.holdSince = q.holdSince from rfl]
    cases q.holdSince <;> split <;> rfl
  rw [read p, h, ← read q]

/-- A sequencer with a step has it ended, and is stopped. -/
theorem halt_underWay (reset : Bool)
    (h : (s.seqs.get v).state = .running ∨ (s.seqs.get v).state = .suspended ∨ (s.seqs.get v).state = .blocked) :
    (halt v reset s).unoffered v = ((s.seqs.get v).stopped v s.loopTime).unoffered := by
  have left (t : State) : (leftSuspended v t).unoffered v = t.unoffered v := by
    unfold leftSuspended
    split
    · exact unoffered_of_works (boilPump_works t) v
    · rfl
  have halted : (becomeHalted v (haltStep v s)).unoffered v
      = ((s.seqs.get v).stopped v s.loopTime).unoffered := by
    rw [becomeHalted_unoffered, loopTime_of_outer (haltStep_outer v s)]
    exact Sequencer.stopped_congr (haltStep_unoffered v s) ..
  unfold halt
  obtain e | e | e := h <;> rw [e]
  · exact halted
  · exact (left _).trans halted
  · exact halted

/-- Any other is stopped, or stays as it is. -/
theorem halt_resting (reset : Bool)
    (h : (s.seqs.get v).state = .idle ∨ (s.seqs.get v).state = .armed ∨ (s.seqs.get v).state = .halted) :
    (halt v reset s).unoffered v = ((s.seqs.get v).stopped v s.loopTime).unoffered
      ∨ (halt v reset s).unoffered v = s.unoffered v := by
  unfold halt
  obtain e | e | e := h <;> rw [e]
  · simp only
    split
    · exact .inl (becomeHalted_unoffered v s)
    · exact .inr rfl
  · exact .inl (becomeHalted_unoffered v s)
  · exact .inr rfl

/-- A halt keeps a sequencer's list, setpoint, integral and causes, and of one with a step drops the blocked reason and
forces the heat demand to 0 (R82, R94). -/
structure HaltKeeps (v : Vessel) (q p : Sequencer) : Prop where
  kept  : p.list = q.list ∧ p.setpoint = q.setpoint ∧ p.integral = q.integral ∧ p.causes = q.causes
  ended : q.state = .running ∨ q.state = .suspended ∨ q.state = .blocked →
    p.blocked = none ∧ (heated v = true → p.lastDemand = 0 ∧ p.zeroForced = true)

theorem HaltKeeps.congr {q p p' : Sequencer} (h : HaltKeeps v q p) (e : p'.unoffered = p.unoffered) :
    HaltKeeps v q p' := by
  have same : HaltKeeps v q p.unoffered := ⟨h.kept, h.ended⟩
  rw [← e] at same
  exact ⟨same.kept, same.ended⟩

theorem Sequencer.stopped_keeps (v : Vessel) (now : LoopTime) (q : Sequencer) : HaltKeeps v q (q.stopped v now) :=
  ⟨(q.stopped_fields v now).1, fun _ => (q.stopped_fields v now).2⟩

theorem halt_keeps (v : Vessel) (reset : Bool) (s : State) :
    HaltKeeps v (s.seqs.get v) ((halt v reset s).seqs.get v) := by
  have stopped := (s.seqs.get v).stopped_keeps v s.loopTime
  by_cases going : (s.seqs.get v).state = .running ∨ (s.seqs.get v).state = .suspended
      ∨ (s.seqs.get v).state = .blocked
  · exact stopped.congr (halt_underWay reset going)
  · have resting : (s.seqs.get v).state = .idle ∨ (s.seqs.get v).state = .armed
        ∨ (s.seqs.get v).state = .halted := by
      cases state : (s.seqs.get v).state <;> simp [state] at going ⊢
    obtain halted | same := halt_resting reset resting
    · exact stopped.congr halted
    · exact HaltKeeps.congr ⟨⟨rfl, rfl, rfl, rfl⟩, fun x => absurd x going⟩ same

/-! ### The request (R84) -/

theorem doVesselHalt_barred (barred : CastBars s v) :
    doVesselHalt v rq s = answer 16 rq .busy (num 1 (seqStateCode (s.seqs.get v).state)) s := if_pos barred

theorem doVesselHalt_halts (free : ¬CastBars s v) : doVesselHalt v rq s
    = answer 16 rq .ok (num 1 (seqStateCode ((halt v false s).seqs.get v).state)) (halt v false s) := if_neg free

theorem serveVesselHalt_asked (a : Asks rq (.vesselHalt v) s) :
    serveVesselHalt rq (taken s) = doVesselHalt v rq (taken s) := by
  have carries : parseReq (taken s).stationAddress 16 rq.params = some (.vesselHalt v) := a.carries
  simp only [serveVesselHalt, carries]

/-- Settles O36: the cast that bars the whirlpool's halt, and the halt. -/
theorem vesselHaltRequests : Obligations.VesselHaltRequests := by
  intro v rq s a c q casting
  have bars : CastBars (taken s) v ↔ casting := and_congr_right fun _ => castOpen_iff (taken s)
  refine ⟨fun barred => ?_, fun free => ?_⟩
  · exact answers_of (serveVesselHalt rq) rfl a.toTakes
      ((serveVesselHalt_asked a).trans (doVesselHalt_barred (bars.2 barred))) a.tells a.arbiter
  · let u := halt v false (taken s)
    let data := num 1 (seqStateCode (u.seqs.get v).state)
    have run : serveVesselHalt rq (taken s) = answer 16 rq .ok data u :=
      (serveVesselHalt_asked a).trans (doVesselHalt_halts (mt bars.1 free))
    have works : (settle (answer 16 rq .ok data u)).works = u.works := settled_works ..
    have halts := halt_halts v (taken s)
    have keeps := (halt_keeps v false (taken s)).congr (unoffered_of_works works v)
    have seat := seat_of_works works
    have state (w : Vessel) : ((settle (answer 16 rq .ok data u)).seqs.get w).state = (u.seqs.get w).state :=
      congrArg (fun x : Vessel → Seat => (x w).state) seat
    refine ⟨settle (answer 16 rq .ok data u), congrArg Host.Outcome.next ?_, ?_, ?_, ⟨?_, ?_⟩,
      fun w => ⟨?_, ?_, ?_⟩⟩
    · exact (onRequest_takes (q := queuedOf 16 rq) (serveVesselHalt rq) a.toTakes).trans (congrArg settle run)
    · rw [state]
      exact replied_settled ..
    · exact (ruled_of_works works).trans (ruled_of_seats halts.outer halts.rules)
    · exact (state v).trans halts.state
    · obtain ⟨⟨list, setpoint, integral, causes⟩, ended⟩ := keeps
      refine ⟨list, setpoint, integral, causes, fun going => ?_⟩
      obtain ⟨position, unlocked⟩ := halts.left going
      obtain ⟨blocked, zero⟩ := ended going
      refine ⟨(congrArg (fun x : Vessel → Seat => (x v).position) seat).trans position, blocked, ?_, zero⟩
      rw [vessels_of_works works]
      exact unlocked
    · rw [vessels_of_works works]
      exact congrArg Prod.fst (halt_held v false (taken s) w)
    · rw [vessels_of_works works]
      exact congrArg Prod.snd (halt_held v false (taken s) w)
    · intro apart
      exact (state w).trans (congrArg Seat.state (halts.others w apart))

end Sys2Proof.Machine
end

section
/-! The timers of the sequencers and of the Boil Unit (R88, R93, R94, R102). -/

namespace Sys2Proof.Machine

variable {s t : State} {v : Vessel} {d i n row : Nat} {start : LoopTime} {p : PointRow}

/-- A timer that runs has run out when its limit has passed (R21). -/
theorem timerDue_some (now start : LoopTime) (limit : Nat) :
    timerDue now (some start) limit = true ↔ limit ≤ (now - start).toNat := decide_eq_true_iff

/-! ### The hold timer (R88) -/

/-- The hold timer of a HOLD on a vessel with no heat point counts the time spent RUNNING. -/
theorem holdDue_iff {st : StepRow} (unheated : heated v = false) (hs : currentStep s v = some st)
    (kind : st.kind = .hold) (phase : (s.seqs.get v).phase = .inEffect) (running : (s.seqs.get v).state = .running)
    (since : (s.seqs.get v).holdSince = some start) :
    holdDue s v = true ↔ 1000 * st.hold ≤ (s.seqs.get v).holdElapsed + (s.loopTime - start).toNat := by
  have time : holdTime s v = (s.seqs.get v).holdElapsed + (s.loopTime - start).toNat := by
    simp only [holdTime, Sequencer.stopHold, since, elapsed]
  unfold holdDue
  simp [hs, kind, unheated, phase, running, since, time, Nat.mul_comm]

/-! ### The refresh timer (R93, R94) -/

/-- The refresh timer restarts. -/
def refreshRestarted (v : Vessel) (s : State) : State :=
  withSeq v (fun q => { q with refreshTimer := some s.loopTime }) s

/-- The last demand of a heating step is offered once more, unless it is a forced zero. -/
def heatRefreshed (v : Vessel) (s : State) : State :=
  if heatingStep s v && !(s.seqs.get v).zeroForced then offerHeat v (s.seqs.get v).lastDemand s else s

theorem boilPump_nothing (empty : s.boil.sendQueue = []) (head : s.boil.headRefused = false) : boilPump s = s := by
  unfold boilPump pumpSend
  split
  · rfl
  · simp only [empty]
    unfold withBoil
    rw [← head]

theorem boil_of_still (h : t.still = s.still) : t.boil = s.boil := by
  show t.still.boil = s.still.boil
  rw [h]

theorem heatRefreshed_boil (v : Vessel) (s : State) : (heatRefreshed v s).boil = s.boil := by
  unfold heatRefreshed
  split
  · exact boil_of_still (offerHeat_still ..)
  · rfl

/-- With nothing unsent the timer restarts and the last demand is refreshed, and that is all (R93, R103). -/
theorem refreshExpiry_alone (unsent : (s.seqs.get v).unsent = [])
    (sends : v = .kettle → s.boil.sendQueue = [] ∧ s.boil.headRefused = false) :
    refreshExpiry v s = heatRefreshed v (refreshRestarted v s) := by
  have kept : ((refreshRestarted v s).seqs.get v).unsent = [] := by
    rw [refreshRestarted, withSeq_seqs, PerVessel.get_set_same, unsent]
  have pumped : (if v = .kettle then boilPump (heatRefreshed v (refreshRestarted v s))
      else heatRefreshed v (refreshRestarted v s)) = heatRefreshed v (refreshRestarted v s) := by
    split
    · rename_i kettle
      have boil : (heatRefreshed v (refreshRestarted v s)).boil = s.boil := heatRefreshed_boil ..
      obtain ⟨empty, head⟩ := sends kettle
      exact boilPump_nothing (by rw [boil]; exact empty) (by rw [boil]; exact head)
    · rfl
  refine Eq.trans ?_ pumped
  rw [refreshExpiry_eq]
  simp only [← refreshRestarted.eq_def, kept, List.filter_nil, ite_self]
  rfl

theorem heatingStep_of (hot : heated v = true) (running : (s.seqs.get v).state = .running)
    (kind : currentKind s v = some .hold ∨ currentKind s v = some .ramp ∨ currentKind s v = some .boil) :
    heatingStep s v = true := by
  unfold heatingStep
  rw [hot, running]
  obtain e | e | e := kind <;> rw [e] <;> rfl

theorem refreshRestarted_get (v : Vessel) (s : State) :
    (refreshRestarted v s).seqs.get v = { s.seqs.get v with refreshTimer := some s.loopTime } :=
  PerVessel.get_set_same ..

theorem refreshRestarted_kind (v : Vessel) (s : State) : currentKind (refreshRestarted v s) v = currentKind s v := by
  have seat : (refreshRestarted v s).seat = s.seat := withSeq_seat
  exact congrArg (Option.map StepRow.kind) (currentStep_congr rfl (by rw [seat]) (by rw [seat]))

/-- A forced zero is no demand to refresh (R94). -/
theorem heatRefreshed_forced (forced : (s.seqs.get v).zeroForced = true) : heatRefreshed v s = s := by
  unfold heatRefreshed
  rw [forced, Bool.not_true, Bool.and_false]
  rfl

/-- A sequencer's DRIVE at the tail of the insertion queue (R14). -/
def driveQueued (v : Vessel) (p : PointRow) (d : Nat) (s : State) : State :=
  withLoop (fun l => { l with queue := l.queue ++
    [{ frame := (driveFrame s p d).sealed, entry := s.loopTime, owner := .sequencer v }] }) s

/-- The record of a sequencer whose heat demand the queue has taken (R93). -/
def Sequencer.offered (row d : Nat) (now : LoopTime) (q : Sequencer) : Sequencer :=
  { q with lastDemand := d, unsent := dropUnsent row q.unsent, refreshTimer := some now }

/-- A heat demand that joins the insertion queue is the last one, nothing of it unsent, and the refresh timer restarts
(R14, R93). -/
theorem offerHeat_joins (hr : heatRow? s.tables v = some row) (hp : point? s.tables row = some p)
    (busy : s.loop.port ≠ .idle) (room : s.loop.queue.length < 32)
    (apart : ∀ x ∈ s.loop.queue, ¬samePoint (driveFrame s p d).sealed x.frame = true) :
    offerHeat v d s = withSeq v (Sequencer.offered row d s.loopTime) (driveQueued v p d s) := by
  let noted : State := withSeq v (fun q => { q with lastDemand := d }) s
  have drive : offerDrive row d (.sequencer v) noted = (.queued, driveQueued v p d noted) := by
    unfold offerDrive
    rw [show point? noted.tables row = some p from hp]
    exact offer_joins (s := noted) (f := driveFrame s p d) busy apart room
  have offered := seqOffer_eq v { row := row, demand := d, ofStep := false } noted
  simp only [drive] at offered
  unfold offerHeat
  simp only [withSeq_tables, hr]
  rw [offered]
  cases v <;> rfl

/-- A change of a refresh timer is set aside. -/
theorem withSeq_rest {f : Sequencer → Sequencer} (h : (f (s.seqs.get v)).atRest = (s.seqs.get v).atRest) :
    (withSeq v f s).rest = s.rest := by
  have set (p : PerVessel Sequencer) (a : Sequencer) : seqsAtRest (p.set v a) = (seqsAtRest p).set v a.atRest := by
    cases v <;> rfl
  have get (p : PerVessel Sequencer) : (seqsAtRest p).get v = (p.get v).atRest := by cases v <;> rfl
  show { s.rest with seqs := seqsAtRest (s.seqs.set v (f (s.seqs.get v))) } = s.rest
  rw [set, h, ← get, PerVessel.set_get]
  rfl

/-- The last demand goes to the heat point once more, and nothing else changes (R93). -/
theorem heatRefreshed_joins (heating : heatingStep s v = true) (computed : (s.seqs.get v).zeroForced = false)
    (unsent : (s.seqs.get v).unsent = []) (hr : heatRow? s.tables v = some row) (hp : point? s.tables row = some p)
    (tells : s.tells = []) (busy : s.loop.port ≠ .idle) (room : s.loop.queue.length < 32)
    (apart : ∀ x ∈ s.loop.queue, ¬samePoint (driveFrame s p (s.seqs.get v).lastDemand).sealed x.frame = true) :
    (settle (heatRefreshed v s)).rest = s.rest
      ∧ ∃ more, (settle (heatRefreshed v s)).loop.queue = s.loop.queue
        ++ { frame := (driveFrame s p (s.seqs.get v).lastDemand).sealed, entry := s.loopTime
             owner := .sequencer v } :: more := by
  have run : heatRefreshed v s = offerHeat v (s.seqs.get v).lastDemand s := by
    unfold heatRefreshed
    rw [heating, computed]
    rfl
  have offered : ((s.seqs.get v).offered row (s.seqs.get v).lastDemand s.loopTime).atRest = (s.seqs.get v).atRest := by
    unfold Sequencer.offered Sequencer.atRest dropUnsent
    rw [unsent, List.filter_nil, ← unsent]
  let u := withSeq v (Sequencer.offered row (s.seqs.get v).lastDemand s.loopTime)
    (driveQueued v p (s.seqs.get v).lastDemand s)
  have follows : Follows u (settle u) := settle_follows tells busy
  obtain ⟨more, queue⟩ := follows.queue
  rw [run, offerHeat_joins hr hp busy room apart]
  refine ⟨(settle_rest (s := u) tells).trans ?_, more, queue.trans (List.append_cons ..).symm⟩
  exact withSeq_rest (s := driveQueued v p (s.seqs.get v).lastDemand s) offered

/-! ### The confirm timer (R102) -/

/-- The pending addition is missed when its time to be confirmed has passed (R102). -/
theorem confirmExpiry_missed (pending : s.boil.pending = some i) (occupant : s.vessels.kettle.occupant = some n) :
    confirmExpiry s = recordMissed n i .timeout (resolvePending i s) := by
  have held : occupantOf s .kettle = some n := occupant
  simp only [confirmExpiry, pending, held]

/-! ### The statement -/

/-- Settles O38: the hold timer, the refresh timer and the confirm timer, before their limits and at them. -/
theorem vesselTimersExpire : Obligations.VesselTimersExpire := by
  refine ⟨?_, ?_, ?_⟩
  · intro v s active unheated st pos recipe since hs kind q phase running position list timer run
    have due := holdDue_iff unheated hs kind phase running timer
    refine ⟨fun reached => ?_, fun early => if_neg (by rw [due]; exact Nat.not_le.2 early)⟩
    have done : exec (.holdTimerExpiry v) s = .next (settle (completeStep v s)) :=
      (if_pos (due.2 reached)).trans (congrArg _ (if_pos active))
    exact ⟨_, done, (completeStep_stepsOn position list).of_works (settle_works _)⟩
  · intro v row start p s active tells q timer passed
    have due : refreshDue s v = true ↔ (vesselRow s.tables v).refresh ≤ passed := by
      unfold refreshDue
      rw [show (s.seqs.get v).refreshTimer = some start from timer, timerDue_some]
    refine ⟨fun early => if_neg (by rw [due]; exact Nat.not_le.2 early),
      fun reached hot running kind valid heat point unsent sends => ?_⟩
    have run : exec (.refreshTimerExpiry v) s = .next (settle (heatRefreshed v (refreshRestarted v s))) := by
      rw [← refreshExpiry_alone unsent sends]
      exact (if_pos (due.2 reached)).trans (congrArg _ (if_pos active))
    have record := refreshRestarted_get v s
    refine ⟨fun forced => ?_, fun computed busy room => ?_⟩
    · rw [heatRefreshed_forced (by rw [record]; exact forced)] at run
      exact run
    · intro drive apart
      have heating : heatingStep (refreshRestarted v s) v = true := by
        refine heatingStep_of hot ?_ (by rw [refreshRestarted_kind]; exact kind)
        rw [record]
        exact running
      have joins := heatRefreshed_joins (s := refreshRestarted v s) heating (by rw [record]; exact computed)
        (by rw [record]; exact unsent) ((if_pos valid).trans heat) point tells busy room
      rw [record] at joins
      obtain ⟨rest, more, queue⟩ := joins fun x hx same => apart x hx ((samePoint_iff _ _).1 same).2
      exact ⟨_, more, run, rest.trans (withSeq_rest rfl), queue⟩
  · intro i n start s active tells timer pending occupant passed missed
    have due : confirmDue s = true ↔ 120000 ≤ passed := by
      unfold confirmDue
      rw [timer, timerDue_some]
    refine ⟨fun early => if_neg (by rw [due]; exact Nat.not_le.2 early), fun reached => ?_⟩
    exact leaves_active confirmExpiry (if_pos (due.2 reached)) active (confirmExpiry_missed pending occupant)
      ((raise_tells ..).trans tells)

end Sys2Proof.Machine
end

section
/-! The send queue of the Boil Unit (R96, R103): what becomes of its head, and what sending leaves of the Boil Unit. -/

namespace Sys2Proof.Machine

variable {s t : State} {e : SendEntry} {rest : List SendEntry} {p : PointRow} {n : Nat}

/-! ### The records of additions leave the Boil Unit alone -/

theorem boil_of_bare (h : t.bare = s.bare) : t.boil = s.boil := boil_of_still (still_of_bare h)

theorem recordMissed_boil (n i : Nat) (c : MissCause) (s : State) : (recordMissed n i c s).boil = s.boil :=
  (boil_of_bare (raiseBoil_bare ..)).trans rfl

theorem recordFired_boil (n i : Nat) (s : State) : (recordFired n i s).boil = s.boil :=
  (boil_of_bare (raiseBoil_bare ..)).trans rfl

theorem offerAddition_boil (e : SendEntry) (s : State) : (offerAddition e s).2.boil = s.boil :=
  boil_of_bare (offerAddition_bare ..)

/-- The head leaves, whatever else has changed beside the Boil Unit. -/
theorem popSend_of_boil (boil : t.boil = s.boil) (queue : s.boil.sendQueue = e :: rest) :
    popSend t = { t with boil := { s.boil with sendQueue := rest, headRefused := false } } := by
  simp only [popSend, withBoil, boil, queue, List.tail_cons]

theorem popSend_queue (boil : t.boil = s.boil) (queue : s.boil.sendQueue = e :: rest) :
    (popSend t).boil.sendQueue = rest := by
  rw [popSend_of_boil boil queue]

/-! ### The frame of an addition (R96) -/

theorem offerAddition_pointless (h : ¬∃ p, point? s.tables e.point = some p ∧ p.kind = .additionDrive) :
    offerAddition e s = (.noPoint, s) := by
  unfold offerAddition
  split
  · rename_i p valid
    exact if_neg fun kind => h ⟨p, valid, kind⟩
  · rfl

theorem offerAddition_drives (valid : point? s.tables e.point = some p) (kind : p.kind = .additionDrive) :
    offerAddition e s = offer (driveFrame s p e.quantity) .boilUnit s := by
  unfold offerAddition
  simp only [valid, kind, if_true]

/-! ### The offer of the head (R103) -/

/-- Nothing is offered under a suspension, or with a frame outstanding. -/
theorem boilPump_barred (h : s.seqs.kettle.state = .suspended ∨ s.boil.outstanding = true) : boilPump s = s := by
  unfold boilPump pumpSend
  exact if_pos h

/-- The Boil Unit is free to offer the head of its send queue. -/
structure OffersHead (e : SendEntry) (rest : List SendEntry) (s : State) : Prop where
  active : s.seqs.kettle.state ≠ .suspended
  free   : s.boil.outstanding = false
  queue  : s.boil.sendQueue = e :: rest

theorem OffersHead.unbarred (o : OffersHead e rest s) :
    ¬((s.seqs.get .kettle).state = .suspended ∨ s.boil.outstanding = true) := by
  rintro (suspended | outstanding)
  · exact o.active suspended
  · rw [o.free] at outstanding
    cases outstanding

theorem brewRow?_isNone_iff : (brewRow? s n).isNone = true ↔ brew? s n = none := by
  unfold brew?
  cases row : brewRow? s n with
  | none => simp
  | some r =>
    obtain ⟨inside, named, _⟩ := List.findIdx?_eq_some_iff_getElem.1 row
    simp only [Option.isNone_some, Option.bind_some, List.getD_eq_getElem?_getD, List.getElem?_eq_getElem inside,
      Option.getD_some]
    cases held : s.brews[r] with
    | none => simp [held] at named
    | some b => simp

/-- The head of a brew that has been freed goes unrecorded. -/
theorem boilPump_freed (o : OffersHead e rest s) (gone : brew? s e.brew = none) :
    boilPump s = boilPump (popSend s) := by
  rw [boilPump, boilPump, popSend_queue rfl o.queue, pumpSend, if_neg o.unbarred]
  simp only [o.queue, brewRow?_isNone_iff.2 gone, if_true, List.length_cons]

theorem brewRow?_held (held : (brew? s n).isSome = true) : ¬(brewRow? s n).isNone = true := by
  rw [brewRow?_isNone_iff]
  exact Option.isSome_iff_ne_none.1 held

section

variable (o : OffersHead e rest s) (held : (brew? s e.brew).isSome = true)

include o held

/-- A head whose point builds no frame is missed, and the next is offered. -/
theorem boilPump_pointless (offered : offerAddition e s = (.noPoint, t)) :
    boilPump s = boilPump (recordMissed e.brew e.index .noPoint (popSend t)) := by
  have boil : t.boil = s.boil := by rw [← offerAddition_boil e s, offered]
  rw [boilPump, boilPump, recordMissed_boil, popSend_queue boil o.queue, pumpSend, if_neg o.unbarred]
  simp only [o.queue, if_neg (brewRow?_held held), offered, List.length_cons]

/-- A head that is refused stays. -/
theorem boilPump_refused (offered : offerAddition e s = (.refused, t)) :
    boilPump s = withBoil (fun b => { b with headRefused := true }) t := by
  rw [boilPump, pumpSend, if_neg o.unbarred]
  simp only [o.queue, if_neg (brewRow?_held held), offered]

/-- A head that is queued is fired, and outstanding. -/
theorem boilPump_queued (offered : offerAddition e s = (.queued, t)) : boilPump s =
    recordFired e.brew e.index (withBoil (fun b => { b with outstanding := true }) (popSend t)) := by
  rw [boilPump, pumpSend, if_neg o.unbarred]
  simp only [o.queue, if_neg (brewRow?_held held), offered]

/-- A head that is sent at once is fired, and the next is offered. -/
theorem boilPump_begun (offered : offerAddition e s = (.begun, t)) :
    boilPump s = boilPump (recordFired e.brew e.index (popSend t)) := by
  have boil : t.boil = s.boil := by rw [← offerAddition_boil e s, offered]
  rw [boilPump, boilPump, recordFired_boil, popSend_queue boil o.queue, pumpSend, if_neg o.unbarred]
  simp only [o.queue, if_neg (brewRow?_held held), offered, List.length_cons]

end

/-! ### What sending leaves of the Boil Unit -/

/-- The Boil Unit's record with what sending changes set aside. -/
def BoilUnit.unsent (u : BoilUnit) : BoilUnit :=
  { u with sendQueue := [], outstanding := false, headRefused := false }

/-- What the stages of a sample read of the Boil Unit. -/
theorem BoilUnit.read_of_unsent {u w : BoilUnit} (h : u.unsent = w.unsent) : u.begun = w.begun ∧ u.clock = w.clock
    ∧ u.cursor = w.cursor ∧ u.pending = w.pending ∧ u.confirmTimer = w.confirmTimer :=
  ⟨(congrArg BoilUnit.begun h :), (congrArg BoilUnit.clock h :), (congrArg BoilUnit.cursor h :),
    (congrArg BoilUnit.pending h :), (congrArg BoilUnit.confirmTimer h :)⟩

theorem popSend_unsent (s : State) : (popSend s).boil.unsent = s.boil.unsent := rfl

theorem boilPump_empty (h : s.boil.sendQueue = []) : (boilPump s).boil.unsent = s.boil.unsent := by
  unfold boilPump pumpSend
  split
  · rfl
  · simp only [h]
    rfl

theorem boilPump_unsent (s : State) : (boilPump s).boil.unsent = s.boil.unsent := by
  induction queue : s.boil.sendQueue generalizing s with
  | nil => exact boilPump_empty queue
  | cons e rest ih =>
    by_cases barred : s.seqs.kettle.state = .suspended ∨ s.boil.outstanding = true
    · rw [boilPump_barred barred]
    obtain ⟨active, free⟩ := not_or.1 barred
    have o : OffersHead e rest s := ⟨active, eq_false_of_ne_true free, queue⟩
    by_cases gone : brew? s e.brew = none
    · rw [boilPump_freed o gone, ih _ (popSend_queue rfl queue), popSend_unsent]
    have held : (brew? s e.brew).isSome = true := Option.isSome_iff_ne_none.2 gone
    have boil : (offerAddition e s).2.boil = s.boil := offerAddition_boil e s
    cases offered : offerAddition e s with
    | mk r t =>
      rw [offered] at boil
      cases r with
      | noPoint =>
        rw [boilPump_pointless o held offered, ih _ (by rw [recordMissed_boil]; exact popSend_queue boil queue),
          recordMissed_boil, popSend_unsent, boil]
      | refused =>
        rw [boilPump_refused o held offered, ← boil]
        rfl
      | queued =>
        rw [boilPump_queued o held offered, recordFired_boil, ← boil]
        rfl
      | begun =>
        rw [boilPump_begun o held offered, ih _ (by rw [recordFired_boil]; exact popSend_queue boil queue),
          recordFired_boil, popSend_unsent, boil]

theorem joinSend_joins (n i : Nat) (a : AdditionRow) (room : s.boil.sendQueue.length < 64) :
    joinSend n i a s = boilPump (withBoil (fun b => { b with sendQueue := b.sendQueue ++
      [{ brew := n, index := i, point := a.point, quantity := a.quantity }] }) s) := if_pos room

theorem joinSend_full (n i : Nat) (a : AdditionRow) (full : 64 ≤ s.boil.sendQueue.length) :
    joinSend n i a s = recordMissed n i .sendFull s := if_neg (Nat.not_lt.2 full)

theorem joinSend_unsent (n i : Nat) (a : AdditionRow) (s : State) :
    (joinSend n i a s).boil.unsent = s.boil.unsent := by
  obtain room | full := Nat.lt_or_ge s.boil.sendQueue.length 64
  · rw [joinSend_joins n i a room, boilPump_unsent]
    rfl
  · rw [joinSend_full n i a full, recordMissed_boil]

end Sys2Proof.Machine
end

section
/-! The stages of a sample of the BOIL step: the begin, the accrual and the walk (R98, R100 to R102). -/

namespace Sys2Proof.Machine

variable {s t : State} {b : Brew} {value : Int} {previous : Option Int} {dt n : Nat}

/-! ### The walk (R102) -/

/-- What a walk from `f` leaves of the Boil Unit, by the tables and at a loop time: it has passed the AUTO entries that
are reached, and stands at a reached CONFIRM entry, at one that is not reached, or at the list's end. -/
structure Walked (b : Brew) (tables : Tables) (now : LoopTime) (f u : BoilUnit) : Prop where
  begun   : u.begun = f.begun
  clock   : u.clock = f.clock
  forward : f.cursor ≤ u.cursor
  within  : u.cursor ≤ (recipeRow tables b.recipe).addCount
  passed  : ∀ i, f.cursor ≤ i → i < u.cursor →
    (additionAt tables b.recipe i).confirm = false ∧ (additionAt tables b.recipe i).mark * 1000 ≤ u.clock
  stopped : ∀ i, u.pending = some i → i = u.cursor ∧ i < (recipeRow tables b.recipe).addCount
    ∧ (additionAt tables b.recipe i).confirm = true
    ∧ (additionAt tables b.recipe i).mark * 1000 ≤ u.clock ∧ u.confirmTimer = some now
  waiting : u.pending = none → u.cursor < (recipeRow tables b.recipe).addCount →
    u.clock < (additionAt tables b.recipe u.cursor).mark * 1000

theorem walkAdditions_held (n : Nat) (pending : s.boil.pending ≠ none) : walkAdditions b n s = s := by
  cases n with
  | zero => rfl
  | succ n => exact if_pos (.inl (Option.isSome_iff_ne_none.2 pending))

theorem walkAdditions_past (n : Nat) (past : (recipeRow s.tables b.recipe).addCount ≤ s.boil.cursor) :
    walkAdditions b n s = s := by
  cases n with
  | zero => rfl
  | succ n => exact if_pos (.inr past)

section

variable (pending : s.boil.pending = none) (inside : s.boil.cursor < (recipeRow s.tables b.recipe).addCount)

include pending inside

theorem walk_unstopped :
    ¬(s.boil.pending.isSome = true ∨ (recipeRow s.tables b.recipe).addCount ≤ s.boil.cursor) := by
  rintro (stands | past)
  · rw [pending] at stands
    cases stands
  · exact absurd inside (Nat.not_lt.2 past)

/-- An entry that is not reached ends the walk. -/
theorem walkAdditions_unreached
    (early : s.boil.clock < (additionAt s.tables b.recipe s.boil.cursor).mark * 1000) :
    walkAdditions b (n + 1) s = s := by
  rw [walkAdditions, if_neg (walk_unstopped pending inside)]
  exact if_pos early

variable (reached : (additionAt s.tables b.recipe s.boil.cursor).mark * 1000 ≤ s.boil.clock)

include reached

/-- A reached CONFIRM entry becomes pending, with its timer running. -/
theorem walkAdditions_confirm (confirm : (additionAt s.tables b.recipe s.boil.cursor).confirm = true) :
    (walkAdditions b (n + 1) s).boil
      = { s.boil with pending := some s.boil.cursor, confirmTimer := some s.loopTime } := by
  rw [walkAdditions, if_neg (walk_unstopped pending inside)]
  simp only [if_neg (Nat.not_lt.2 reached), if_pos confirm]
  exact boil_of_bare (raiseBoil_bare ..)

/-- A reached AUTO entry becomes due, and the walk goes on behind it. -/
theorem walkAdditions_auto (auto : (additionAt s.tables b.recipe s.boil.cursor).confirm = false) :
    walkAdditions b (n + 1) s = walkAdditions b n
      (joinSend b.number s.boil.cursor (additionAt s.tables b.recipe s.boil.cursor)
        (withBoil (fun u => { u with cursor := s.boil.cursor + 1 }) s)) := by
  rw [walkAdditions, if_neg (walk_unstopped pending inside)]
  simp only [if_neg (Nat.not_lt.2 reached), auto, Bool.false_eq_true, if_false]

end

/-- A walk that ends where it began. -/
theorem Walked.stays {tables : Tables} {now : LoopTime} {f : BoilUnit} (pending : f.pending = none)
    (within : f.cursor ≤ (recipeRow tables b.recipe).addCount)
    (waiting : f.cursor < (recipeRow tables b.recipe).addCount →
      f.clock < (additionAt tables b.recipe f.cursor).mark * 1000) : Walked b tables now f f where
  begun := rfl
  clock := rfl
  forward := Nat.le_refl _
  within := within
  passed _ from' before := absurd before (Nat.not_lt.2 from')
  stopped i stands := by
    rw [pending] at stands
    cases stands
  waiting _ := waiting

/-- The walk goes on behind a reached AUTO entry. -/
theorem Walked.step {tables : Tables} {now : LoopTime} {f g u : BoilUnit} (w : Walked b tables now g u)
    (begun : g.begun = f.begun) (clock : g.clock = f.clock) (cursor : g.cursor = f.cursor + 1)
    (reached : (additionAt tables b.recipe f.cursor).mark * 1000 ≤ f.clock)
    (auto : (additionAt tables b.recipe f.cursor).confirm = false) : Walked b tables now f u := by
  obtain ⟨wbegun, wclock, forward, within, passed, stopped, waiting⟩ := w
  rw [cursor] at forward passed
  rw [clock] at wclock
  refine ⟨wbegun.trans begun, wclock, Nat.le_of_succ_le forward, within, fun i from' before => ?_, stopped, waiting⟩
  obtain here | behind := Nat.eq_or_lt_of_le from'
  · subst here
    exact ⟨auto, wclock ▸ reached⟩
  · exact passed i behind before

theorem walkAdditions_walked (n : Nat) (pending : s.boil.pending = none)
    (within : s.boil.cursor ≤ (recipeRow s.tables b.recipe).addCount)
    (fuel : (recipeRow s.tables b.recipe).addCount < s.boil.cursor + n) :
    Walked b s.tables s.loopTime s.boil (walkAdditions b n s).boil := by
  induction n generalizing s with
  | zero => omega
  | succ n ih =>
    obtain past | inside := Nat.eq_or_lt_of_le within
    · rw [walkAdditions_past _ past.ge]
      exact .stays pending within fun inside => absurd past inside.ne
    obtain early | reached := Nat.lt_or_ge s.boil.clock ((additionAt s.tables b.recipe s.boil.cursor).mark * 1000)
    · rw [walkAdditions_unreached pending inside early]
      exact .stays pending within fun _ => early
    cases mode : (additionAt s.tables b.recipe s.boil.cursor).confirm with
    | true =>
      rw [walkAdditions_confirm pending inside reached mode]
      refine ⟨rfl, rfl, Nat.le_refl _, within, fun i from' before => absurd before (Nat.not_lt.2 from'), ?_, nofun⟩
      rintro i ⟨⟩
      exact ⟨rfl, inside, mode, reached, rfl⟩
    | false =>
      rw [walkAdditions_auto pending inside reached mode]
      generalize joined : joinSend b.number s.boil.cursor (additionAt s.tables b.recipe s.boil.cursor)
        (withBoil (fun u => { u with cursor := s.boil.cursor + 1 }) s) = t
      have unsent : t.boil.unsent = ({ s.boil with cursor := s.boil.cursor + 1 } : BoilUnit).unsent := by
        rw [← joined, joinSend_unsent]
        rfl
      have outer : t.outer = s.outer := by
        rw [← joined]
        exact outer_of_works (joinSend_works ..)
      obtain ⟨begun, clock, cursor, waits, -⟩ := BoilUnit.read_of_unsent unsent
      have tables := tables_of_outer outer
      have walked : Walked b t.tables t.loopTime t.boil (walkAdditions b n t).boil := by
        refine ih (waits.trans pending) ?_ ?_ <;> rw [tables, show t.boil.cursor = s.boil.cursor + 1 from cursor]
        · exact inside
        · omega
      rw [tables, loopTime_of_outer outer] at walked
      exact walked.step begun clock cursor reached mode

/-- No walk changes the clock. -/
theorem walkAdditions_clock (b : Brew) (s : State) :
    (walkAdditions b ((recipeRow s.tables b.recipe).addCount + 1) s).boil.begun = s.boil.begun
      ∧ (walkAdditions b ((recipeRow s.tables b.recipe).addCount + 1) s).boil.clock = s.boil.clock := by
  by_cases pending : s.boil.pending = none
  · obtain inside | past := Nat.lt_or_ge s.boil.cursor (recipeRow s.tables b.recipe).addCount
    · have walked := walkAdditions_walked (b := b) ((recipeRow s.tables b.recipe).addCount + 1) pending inside.le
        (by omega)
      exact ⟨walked.begun, walked.clock⟩
    · rw [walkAdditions_past _ past]
      exact ⟨rfl, rfl⟩
  · rw [walkAdditions_held _ pending]
    exact ⟨rfl, rfl⟩

/-! ### The begin and the accrual (R100, R101) -/

/-- Stage 1 of a sample: the boil begins at the threshold (R100). -/
def begunAt (b : Brew) (value : Int) (s : State) : State :=
  if ((recipeRow s.tables b.recipe).threshold : Int) ≤ value ∧ s.boil.begun = false then beginBoil b s else s

/-- Stage 2: the clock gains dt from a value at the threshold (R101). -/
def accruedFrom (b : Brew) (threshold : Int) (previous : Option Int) (dt : Nat) (s : State) : State :=
  if previous.any fun p => decide (threshold ≤ p) then accrueBoil b.number dt s else s

theorem boilStages_eq (b : Brew) (value : Int) (previous : Option Int) (dt : Nat) (s : State) :
    boilStages b value previous dt s =
      let u := accruedFrom b (recipeRow s.tables b.recipe).threshold previous dt (begunAt b value s)
      if (begunAt b value s).boil.begun then walkAdditions b ((recipeRow u.tables b.recipe).addCount + 1) u
      else begunAt b value s := rfl

theorem begunAt_early (below : value < (recipeRow s.tables b.recipe).threshold) : begunAt b value s = s :=
  if_neg fun begins => absurd begins.1 (Int.not_le.2 below)

theorem begunAt_outer (b : Brew) (value : Int) (s : State) : (begunAt b value s).outer = s.outer := by
  unfold begunAt
  split
  · exact outer_of_works (beginBoil_works ..)
  · rfl

theorem accruedFrom_outer (b : Brew) (threshold : Int) (previous : Option Int) (dt : Nat) (s : State) :
    (accruedFrom b threshold previous dt s).outer = s.outer := by
  unfold accruedFrom
  split <;> rfl

theorem beginBoil_boil (b : Brew) (s : State) : (beginBoil b s).boil = { s.boil with begun := true, clock := 0 } :=
  (boil_of_bare (raiseBoil_bare ..)).trans rfl

/-- A boil that begins has its clock at 0; one that has begun keeps its clock. -/
theorem begunAt_boil (boils : s.boil.begun = true ∨ ((recipeRow s.tables b.recipe).threshold : Int) ≤ value) :
    (begunAt b value s).boil
      = { s.boil with begun := true, clock := if s.boil.begun then s.boil.clock else 0 } := by
  unfold begunAt
  cases begun : s.boil.begun with
  | false =>
    have reached := boils.resolve_left (by rw [begun]; exact Bool.false_ne_true)
    rw [if_pos ⟨reached, rfl⟩, beginBoil_boil]
    rfl
  | true =>
    rw [if_neg fun begins => Bool.noConfusion begins.2]
    simp only [if_true, ← begun]

theorem accruedFrom_boil (b : Brew) (threshold : Int) (previous : Option Int) (dt : Nat) (s : State) :
    (accruedFrom b threshold previous dt s).boil = { s.boil with
      clock := s.boil.clock + if previous.any fun p => decide (threshold ≤ p) then dt else 0 } := by
  unfold accruedFrom
  split <;> rfl

theorem boilStages_early (begun : s.boil.begun = false)
    (below : value < (recipeRow s.tables b.recipe).threshold) : boilStages b value previous dt s = s := by
  rw [boilStages_eq, begunAt_early below]
  simp only [begun, Bool.false_eq_true, if_false]

/-- The boil clock after the accrual. -/
def clockAccrued (u : BoilUnit) (threshold : Int) (previous : Option Int) (dt : Nat) : Nat :=
  (if u.begun then u.clock else 0) + if previous.any fun p => decide (threshold ≤ p) then dt else 0

theorem clockAccrued_boiling {u : BoilUnit} {threshold : Int}
    (boiling : ∃ p, previous = some p ∧ threshold ≤ p) :
    clockAccrued u threshold previous dt = (if u.begun then u.clock else 0) + dt := by
  obtain ⟨p, rfl, above⟩ := boiling
  unfold clockAccrued
  rw [Option.any_some, decide_eq_true above, if_pos (c := true = true) rfl]

theorem clockAccrued_cooled {u : BoilUnit} {threshold : Int}
    (cooled : ¬∃ p, previous = some p ∧ threshold ≤ p) :
    clockAccrued u threshold previous dt = if u.begun then u.clock else 0 := by
  have gains : ¬(previous.any fun p => decide (threshold ≤ p)) = true := by
    rw [Option.any_eq_true]
    rintro ⟨p, stood, above⟩
    exact cooled ⟨p, stood, of_decide_eq_true above⟩
  unfold clockAccrued
  rw [if_neg gains, Nat.add_zero]

/-- The Boil Unit of a boil that has begun, with its clock accrued. -/
def BoilUnit.accrued (threshold : Int) (previous : Option Int) (dt : Nat) (u : BoilUnit) : BoilUnit :=
  { u with begun := true, clock := clockAccrued u threshold previous dt }

section

variable (boils : s.boil.begun = true ∨ ((recipeRow s.tables b.recipe).threshold : Int) ≤ value)

include boils

/-- A boil that has begun is walked with its clock accrued. -/
theorem boilStages_walks : ∃ u, u.outer = s.outer
    ∧ u.boil = s.boil.accrued (recipeRow s.tables b.recipe).threshold previous dt
    ∧ boilStages b value previous dt s = walkAdditions b ((recipeRow u.tables b.recipe).addCount + 1) u := by
  have begun := begunAt_boil boils
  refine ⟨accruedFrom b (recipeRow s.tables b.recipe).threshold previous dt (begunAt b value s),
    (accruedFrom_outer ..).trans (begunAt_outer b value s), ?_, ?_⟩
  · rw [accruedFrom_boil, begun]
    rfl
  · rw [boilStages_eq, begun]
    rfl

/-- The boil has begun, and its clock is accrued. -/
theorem boilStages_clock : (boilStages b value previous dt s).boil.begun = true
    ∧ (boilStages b value previous dt s).boil.clock
      = clockAccrued s.boil (recipeRow s.tables b.recipe).threshold previous dt := by
  obtain ⟨u, -, boil, run⟩ := boilStages_walks (previous := previous) (dt := dt) boils
  have kept := walkAdditions_clock b u
  rw [← run, boil] at kept
  exact kept

/-- With an addition pending there is no walk. -/
theorem boilStages_held (pending : s.boil.pending ≠ none) : (boilStages b value previous dt s).boil
    = s.boil.accrued (recipeRow s.tables b.recipe).threshold previous dt := by
  obtain ⟨u, -, boil, run⟩ := boilStages_walks (previous := previous) (dt := dt) boils
  rw [run, walkAdditions_held _ (by rw [boil]; exact pending), boil]

theorem boilStages_walked (pending : s.boil.pending = none)
    (within : s.boil.cursor ≤ (recipeRow s.tables b.recipe).addCount) :
    Walked b s.tables s.loopTime (s.boil.accrued (recipeRow s.tables b.recipe).threshold previous dt)
      (boilStages b value previous dt s).boil := by
  obtain ⟨u, outer, boil, run⟩ := boilStages_walks (previous := previous) (dt := dt) boils
  rw [run, ← boil, ← tables_of_outer outer, ← loopTime_of_outer outer]
  refine walkAdditions_walked _ ?_ ?_ (by omega)
  · rw [boil]
    exact pending
  · rw [boil, tables_of_outer outer]
    exact within

end

/-! ### The heat and the completion of the sample (R98, R99, R104) -/

theorem boilTargetReached_iff : boilTargetReached s b = true
    ↔ s.boil.begun = true ∧ (recipeRow s.tables b.recipe).target * 1000 ≤ s.boil.clock := by
  simp only [boilTargetReached, Bool.and_eq_true, decide_eq_true_eq]

/-- Stage 4 of a sample: its heat demand, unless the next step forces it to 0 (R98, R99). -/
def boilHeated (b : Brew) (st : StepRow) (value : Int) (s : State) : State :=
  if boilTargetReached s b && nextForcesZero s .kettle then s else heatDemand .kettle (boilHeat s b st value) s

theorem boilHeated_still (b : Brew) (st : StepRow) (value : Int) (s : State) :
    (boilHeated b st value s).still = s.still := by
  unfold boilHeated
  split
  · rfl
  · exact heatDemand_still ..

theorem boilSample_eq {st : StepRow} (occupant : occupantBrew? s .kettle = some b) :
    boilSample st value previous dt s =
      let u := boilStages b value previous dt s
      if boilTargetReached u b then completeStep .kettle (completeBoil b (boilHeated b st value u))
      else boilHeated b st value u := by
  unfold boilSample
  rw [occupant]
  rfl

/-- Whether the stages of a sample bring the boil to its target. -/
def completesBoil (b : Brew) (value : Int) (previous : Option Int) (dt : Nat) (s : State) : Prop :=
  (boilStages b value previous dt s).boil.begun = true
    ∧ (recipeRow s.tables b.recipe).target * 1000 ≤ (boilStages b value previous dt s).boil.clock

theorem completesBoil_iff : boilTargetReached (boilStages b value previous dt s) b = true
    ↔ completesBoil b value previous dt s := by
  rw [boilTargetReached_iff, tables_of_outer (boilStages_outer ..)]
  rfl

theorem boilSample_completes {st : StepRow} (occupant : occupantBrew? s .kettle = some b)
    (complete : completesBoil b value previous dt s) : boilSample st value previous dt s
      = completeStep .kettle (completeBoil b (boilHeated b st value (boilStages b value previous dt s))) :=
  (boilSample_eq occupant).trans (if_pos (completesBoil_iff.2 complete))

theorem boilSample_goesOn {st : StepRow} (occupant : occupantBrew? s .kettle = some b)
    (short : ¬completesBoil b value previous dt s) : boilSample st value previous dt s
      = boilHeated b st value (boilStages b value previous dt s) :=
  (boilSample_eq occupant).trans (if_neg fun done => short (completesBoil_iff.1 done))

end Sys2Proof.Machine
end

section
/-! The completion of a boil: the boil record of its brew and the events (R104, R105). -/

namespace Sys2Proof.Machine

variable {s t : State} {b : Brew} {r : BoilRecord} {n : Nat}

/-! ### The boil record of a brew (R108) -/

/-- The boil record of a brew number. -/
def boilRecord? (s : State) (n : Nat) : Option BoilRecord := (brew? s n).bind Brew.boil

theorem boilRecord?_eq_some_iff : boilRecord? s n = some r ↔ ∃ d, brew? s n = some d ∧ d.boil = some r :=
  Option.bind_eq_some_iff

theorem boilRecord?_of_brews (h : t.brews = s.brews) (n : Nat) : boilRecord? t n = boilRecord? s n := by
  unfold boilRecord? brew? brewRow?
  rw [h]

theorem boilRecord?_of_bare (h : t.bare = s.bare) (n : Nat) : boilRecord? t n = boilRecord? s n :=
  boilRecord?_of_brews (brews_of_still (still_of_bare h)) n

theorem boilRecord?_withBoilRecord (n : Nat) (f : BoilRecord → BoilRecord) (s : State) :
    boilRecord? (withBoilRecord n f s) n = (boilRecord? s n).map f := by
  unfold boilRecord? withBoilRecord
  rw [brew?_withBrew (f := fun d => { d with boil := d.boil.map f }) fun _ => rfl]
  cases brew? s n <;> rfl

theorem boilRecord?_recordMissed (n i : Nat) (c : MissCause) (s : State) : boilRecord? (recordMissed n i c s) n
    = (boilRecord? s n).map fun r => { r with missed := r.missed ++ [(i, c)] } :=
  (boilRecord?_of_bare (raiseBoil_bare ..) n).trans (boilRecord?_withBoilRecord ..)

/-! ### The entries not reached (R104) -/

theorem recordAllMissed_boil (n : Nat) (c : MissCause) (l : List Nat) (s : State) :
    (l.foldl (fun s i => recordMissed n i c s) s).boil = s.boil := by
  induction l generalizing s with
  | nil => rfl
  | cons i l ih => rw [List.foldl_cons, ih, recordMissed_boil]

theorem boilRecord?_recordAllMissed (n : Nat) (c : MissCause) (l : List Nat) (s : State) :
    boilRecord? (l.foldl (fun s i => recordMissed n i c s) s) n
      = (boilRecord? s n).map fun r => { r with missed := r.missed ++ l.map fun i => (i, c) } := by
  induction l generalizing s with
  | nil =>
    simp only [List.foldl_nil, List.map_nil, List.append_nil]
    exact Option.map_id'.symm
  | cons i l ih =>
    rw [List.foldl_cons, ih, boilRecord?_recordMissed, Option.map_map]
    congr 1
    funext r
    simp

theorem missRest_boil (b : Brew) (s : State) : (missRest b s).boil = { s.boil with
    pending := none, confirmTimer := none, cursor := (recipeRow s.tables b.recipe).addCount } :=
  recordAllMissed_boil ..

/-- The entries from the cursor on, each with TARGET_REACHED. -/
def unreached (b : Brew) (s : State) : List (Nat × MissCause) :=
  (List.range' s.boil.cursor ((recipeRow s.tables b.recipe).addCount - s.boil.cursor)).map
    fun i => (i, MissCause.targetReached)

theorem boilRecord?_missRest (b : Brew) (s : State) : boilRecord? (missRest b s) b.number
    = (boilRecord? s b.number).map fun r => { r with missed := r.missed ++ unreached b s } :=
  (boilRecord?_recordAllMissed ..).trans rfl

/-! ### The end level and the evaporation (R104, R105) -/

theorem kettleLevel_of_outer (h : t.outer = s.outer) : kettleLevel t = kettleLevel s := by
  unfold kettleLevel freshPoint valueOf entryOf
  rw [tables_of_outer h, points_of_outer h]

/-- The evaporation is present when both levels are (R105). -/
def evaporated (start level : Option Nat) : Option (Nat × Nat) :=
  match start, level with
  | some x, some y => some (evaporationOf x y)
  | _, _ => none

theorem evaporated_missing {start level : Option Nat} (h : start = none ∨ level = none) :
    evaporated start level = none := by
  obtain rfl | rfl := h
  · rfl
  · cases start <;> rfl

/-- A boil record with its end level and its evaporation written (R104). -/
def BoilRecord.measured (level : Option Nat) (evap : Option (Nat × Nat)) (r : BoilRecord) : BoilRecord :=
  { r with endLevel := level, levelMissing := r.levelMissing || level.isNone, evaporation := evap }

/-- The entries not reached are missed, and the end level and the evaporation are written. -/
def boilMeasured (b : Brew) (r : BoilRecord) (s : State) : State :=
  withBoilRecord b.number (BoilRecord.measured (kettleLevel s) (evaporated r.startLevel (kettleLevel s))) (missRest b s)

theorem boilMeasured_boil (b : Brew) (r : BoilRecord) (s : State) : (boilMeasured b r s).boil = { s.boil with
    pending := none, confirmTimer := none, cursor := (recipeRow s.tables b.recipe).addCount } := missRest_boil b s

theorem boilRecord?_boilMeasured (found : boilRecord? s b.number = some r) :
    boilRecord? (boilMeasured b r s) b.number
      = some { r.measured (kettleLevel s) (evaporated r.startLevel (kettleLevel s)) with
          missed := r.missed ++ unreached b s } := by
  unfold boilMeasured
  rw [boilRecord?_withBoilRecord, boilRecord?_missRest, found]
  rfl

theorem boilMeasured_outer (b : Brew) (r : BoilRecord) (s : State) : (boilMeasured b r s).outer = s.outer :=
  outer_of_works ((withBoilRecord_works ..).trans (missRest_works ..))

/-- Whether an evaporation is below the recipe's minimum (R104). -/
def belowMinimum (b : Brew) (s : State) (evap : Option (Nat × Nat)) : Bool :=
  evap.any fun e => decide (e.2 < (recipeRow s.tables b.recipe).minEvap)

/-- The argument of BOIL_DONE (6.9). -/
def evaporationArg : Option (Nat × Nat) → EventArg
  | none => .absent
  | some e => .num e.2

/-- BOIL_DONE, and below the minimum LOW_EVAPORATION with its flag (R104). -/
def boilConcluded (b : Brew) (evap : Option (Nat × Nat)) (s : State) : State :=
  match evap with
  | none => raiseBoil .boilDone b.number .absent s
  | some e =>
    let s := raiseBoil .boilDone b.number (.num e.2) s
    if e.2 < (recipeRow s.tables b.recipe).minEvap then
      raiseBoil .lowEvaporation b.number (.num e.2)
        (withBoilRecord b.number (fun r => { r with lowEvaporation := true }) s)
    else s

theorem boilConcluded_eq (b : Brew) (evap : Option (Nat × Nat)) (s : State) : boilConcluded b evap s =
    let done := raiseBoil .boilDone b.number (evaporationArg evap) s
    if belowMinimum b s evap then
      raiseBoil .lowEvaporation b.number (evaporationArg evap)
        (withBoilRecord b.number (fun r => { r with lowEvaporation := true }) done)
    else done := by
  cases evap with
  | none => rfl
  | some e =>
    have tables : (raiseBoil .boilDone b.number (.num e.2) s).tables = s.tables :=
      tables_of_outer (outer_of_bare (raiseBoil_bare ..))
    simp only [boilConcluded, belowMinimum, Option.any_some, decide_eq_true_eq, tables]
    rfl

theorem boilConcluded_boil (b : Brew) (evap : Option (Nat × Nat)) (s : State) :
    (boilConcluded b evap s).boil = s.boil := by
  have done : (raiseBoil .boilDone b.number (evaporationArg evap) s).boil = s.boil := boil_of_bare (raiseBoil_bare ..)
  rw [boilConcluded_eq]
  split
  · exact (boil_of_bare (raiseBoil_bare ..)).trans done
  · exact done

theorem boilRecord?_boilConcluded {evap : Option (Nat × Nat)} (found : boilRecord? s b.number = some r) :
    boilRecord? (boilConcluded b evap s) b.number
      = some { r with lowEvaporation := r.lowEvaporation || belowMinimum b s evap } := by
  have done : boilRecord? (raiseBoil .boilDone b.number (evaporationArg evap) s) b.number = some r :=
    (boilRecord?_of_bare (raiseBoil_bare ..) _).trans found
  rw [boilConcluded_eq]
  cases belowMinimum b s evap with
  | true =>
    rw [Bool.or_true, if_pos rfl, boilRecord?_of_bare (raiseBoil_bare ..), boilRecord?_withBoilRecord, done]
    rfl
  | false =>
    rw [Bool.or_false]
    exact done

theorem completeBoil_eq (found : boilRecord? s b.number = some r) :
    completeBoil b s = boilConcluded b (evaporated r.startLevel (kettleLevel s)) (boilMeasured b r s) := by
  have level : kettleLevel (missRest b s) = kettleLevel s := kettleLevel_of_outer (outer_of_works (missRest_works b s))
  have record : (brew? (missRest b s) b.number).bind Brew.boil
      = some { r with missed := r.missed ++ unreached b s } := by
    rw [show (brew? (missRest b s) b.number).bind Brew.boil = _ from boilRecord?_missRest b s, found]
    rfl
  unfold completeBoil
  simp only [level, record]
  rfl

theorem completeBoil_boil (found : boilRecord? s b.number = some r) : (completeBoil b s).boil = { s.boil with
    pending := none, confirmTimer := none, cursor := (recipeRow s.tables b.recipe).addCount } := by
  rw [completeBoil_eq found, boilConcluded_boil, boilMeasured_boil]

/-- The boil record of a boil that is complete. -/
theorem boilRecord?_completeBoil (found : boilRecord? s b.number = some r) :
    boilRecord? (completeBoil b s) b.number
      = some { r.measured (kettleLevel s) (evaporated r.startLevel (kettleLevel s)) with
          missed := r.missed ++ unreached b s
          lowEvaporation := r.lowEvaporation || belowMinimum b s (evaporated r.startLevel (kettleLevel s)) } := by
  rw [completeBoil_eq found, boilRecord?_boilConcluded (boilRecord?_boilMeasured found)]
  unfold belowMinimum
  rw [tables_of_outer (boilMeasured_outer b r s)]
  rfl

theorem belowMinimum_iff {evap : Nat × Nat} :
    belowMinimum b s (some evap) = true ↔ evap.2 < (recipeRow s.tables b.recipe).minEvap := decide_eq_true_iff

/-- Not below the minimum, BOIL_DONE is the last event. -/
theorem completeBoil_done (found : boilRecord? s b.number = some r)
    (enough : belowMinimum b s (evaporated r.startLevel (kettleLevel s)) = false) :
    ∃ u, completeBoil b s = raise .boilDone (.vessel .kettle) (some b.number)
      (evaporationArg (evaporated r.startLevel (kettleLevel s))) u := by
  rw [belowMinimum, ← tables_of_outer (boilMeasured_outer b r s)] at enough
  rw [completeBoil_eq found, boilConcluded_eq]
  exact ⟨boilMeasured b r s, if_neg (Bool.not_eq_true _ ▸ enough)⟩

/-- Below the minimum LOW_EVAPORATION follows it. -/
theorem completeBoil_low (found : boilRecord? s b.number = some r)
    (low : belowMinimum b s (evaporated r.startLevel (kettleLevel s)) = true) :
    ∃ u, completeBoil b s = raise .lowEvaporation (.vessel .kettle) (some b.number)
      (evaporationArg (evaporated r.startLevel (kettleLevel s))) u := by
  rw [belowMinimum, ← tables_of_outer (boilMeasured_outer b r s)] at low
  rw [completeBoil_eq found, boilConcluded_eq]
  exact ⟨_, if_pos low⟩

end Sys2Proof.Machine
end

section
/-! The boil's statement: the stages of a sample, the completion, and the send queue (R96, R100 to R104). -/

namespace Sys2Proof.Machine

/-- Settles O41: the begin, accrual and walk of a sample; its completion of the step; what the completion writes; and
the send queue. -/
theorem boilSamplesWalkTheAdditions : Obligations.BoilSamplesWalkTheAdditions := by
  refine ⟨fun b value previous dt s => ⟨boilStages_early, fun boils => ?_⟩,
    fun st b value previous dt s occupant => ?_, fun b x r s brew boil => ?_, fun s => ⟨fun n i a => ?_, ?_, ?_⟩⟩
  · obtain ⟨begun, clock⟩ := boilStages_clock (previous := previous) (dt := dt) boils
    refine ⟨begun, ⟨_, rfl, fun boiling => clock.trans (clockAccrued_boiling boiling),
      fun cooled => clock.trans (clockAccrued_cooled cooled)⟩, fun pending => ?_, fun pending within => ?_⟩
    · rw [boilStages_held boils pending]
      exact ⟨rfl, rfl, rfl⟩
    · obtain ⟨-, -, forward, within, passed, stopped, waiting⟩ := boilStages_walked boils pending within
      exact ⟨forward, within, passed, stopped, waiting⟩
  · have still := boilHeated_still b st value (boilStages b value previous dt s)
    exact ⟨fun complete => ⟨_, boilSample_completes occupant complete, boil_of_still still, brews_of_still still⟩,
      fun short => boilSample_goesOn (st := st) occupant short ▸ ⟨boil_of_still still, brews_of_still still⟩⟩
  · have found : boilRecord? s b.number = some r := boilRecord?_eq_some_iff.2 ⟨x, brew, boil⟩
    obtain ⟨y, held, record⟩ := boilRecord?_eq_some_iff.1 (boilRecord?_completeBoil found)
    refine ⟨completeBoil_boil found, y, _, held, record, rfl, rfl, rfl, rfl, rfl, rfl, rfl, rfl, fun missing => ?_,
      fun first last start level => ?_⟩
    · have absent := evaporated_missing missing
      obtain ⟨u, done⟩ := completeBoil_done found (by rw [absent]; rfl)
      rw [absent] at done ⊢
      exact ⟨rfl, Bool.or_false _, u, done⟩
    · have present : evaporated r.startLevel (kettleLevel s) = some (evaporationOf first last) := by
        rw [start, level]
        rfl
      rw [present]
      refine ⟨rfl, fun low => ?_, fun enough => ?_⟩
      · have below := belowMinimum_iff (evap := evaporationOf first last).2 low
        obtain ⟨u, raised⟩ := completeBoil_low found (by rw [present]; exact below)
        rw [present] at raised
        exact ⟨by rw [below, Bool.or_true], u, raised⟩
      · have above : belowMinimum b s (some (evaporationOf first last)) = false :=
          eq_false_of_ne_true fun below => Nat.not_lt.2 enough (belowMinimum_iff.1 below)
        obtain ⟨u, raised⟩ := completeBoil_done found (by rw [present]; exact above)
        rw [present] at raised
        exact ⟨by rw [above, Bool.or_false], u, raised⟩
  · exact ⟨joinSend_joins n i a, joinSend_full n i a⟩
  · exact boilPump_barred
  · intro e rest active free queue
    have o : OffersHead e rest s := ⟨active, free, queue⟩
    have pop {t : State} (boil : t.boil = s.boil) := popSend_of_boil boil queue
    refine ⟨fun gone => ?_, fun held pointless => ?_, fun p held builds => ?_⟩
    · rw [← pop rfl]
      exact boilPump_freed o gone
    · rw [← pop rfl]
      exact boilPump_pointless o held (offerAddition_pointless pointless)
    · have offered := offerAddition_drives builds.1 builds.2
      have boil := offerAddition_boil e s
      rw [offered] at boil
      refine ⟨fun refused => ?_, fun queued => ?_, fun begun => ?_⟩
      · rw [boilPump_refused o held (offered.trans (Prod.ext refused rfl)), withBoil, boil]
        rfl
      · rw [boilPump_queued o held (offered.trans (Prod.ext queued rfl)), pop boil]
        rfl
      · rw [boilPump_begun o held (offered.trans (Prod.ext begun rfl)), pop boil]
        rfl

end Sys2Proof.Machine
end

section
/-! The records the Cast Meter and the Duty Accountant offer to the write queue, and offer again (R125, R149, R160). -/

namespace Sys2Proof.Machine

variable {s t : State} {d : Draft} {c : Cast} {part : DutyPart}

/-! ### Offers of records (R160) -/

theorem queueHasPlace_iff (s : State) : queueHasPlace s = true ↔ s.journal.queue.length < 4 := decide_eq_true_iff

/-- The state with a record taken into the write queue; a CAST_CLOSE takes over the reservation of its cast (R160). -/
def recordQueued (d : Draft) (s : State) : State :=
  { s with
    journal := { s.journal with
      queue := s.journal.queue ++ [d]
      reservations := if d.body.isCastClose then s.journal.reservations else s.journal.reservations + 1 } }

theorem offerRecord_room (d : Draft) (room : s.journal.queue.length < 4) : offerRecord d s = some (recordQueued d s) :=
  if_pos ((queueHasPlace_iff s).2 room)

theorem offerRecord_full (d : Draft) (full : 4 ≤ s.journal.queue.length) : offerRecord d s = none :=
  if_neg fun place => absurd ((queueHasPlace_iff s).1 place) (by omega)

/-! ### The CAST_CLOSE record (R125) -/

/-- The state with a CAST_CLOSE record taken and its charge among the pending charges (R125, R151). -/
def closeTaken (d : Draft) (cast : Nat) (part : DutyPart) (s : State) : State :=
  { s with
    castMeter := { s.castMeter with keptClose := none }
    journal := { s.journal with queue := s.journal.queue ++ [d] }
    duty := { s.duty with
      charges := s.duty.charges ++ [{ cast := cast, dl := part.dl, cdl := part.cdl, d := part.d }] } }

theorem offerClose_room (room : s.journal.queue.length < 4) (body : d.body = .castClose c) (duty : c.duty = some part) :
    offerClose d s = closeTaken d c.number part s := by
  unfold offerClose
  simp only [offerRecord_room d room, body, duty]
  simp only [recordQueued, body]
  rfl

theorem offerClose_full (full : 4 ≤ s.journal.queue.length) :
    offerClose d s = { s with castMeter := { s.castMeter with keptClose := some d } } := by
  unfold offerClose
  rw [offerRecord_full d full]

theorem reofferClose_offers (kept : s.castMeter.keptClose = some d) : reofferClose s = offerClose d s := by
  unfold reofferClose
  rw [kept]

/-! ### A first activation (R149) -/

theorem canActivate_iff (s : State) : canActivate s = true ↔ s.duty.tariff = .none ∧ s.journal.mount = .ready
    ∧ bankValid s.tables = true ∧ s.journal.queue.length < 4 ∧ 1 ≤ freeRoom s.journal := by
  simp [canActivate, queueHasPlace, and_assoc]

theorem firstActivate_room (room : s.journal.queue.length < 4) :
    firstActivate s = { recordQueued (newDraft (.tariff (bankImage s.tables)) 0 s) s with
      duty := { s.duty with tariff := .activating, bankTouched := false } } := by
  unfold firstActivate offerTariff
  rw [offerRecord_room _ room]
  rfl

/-- Settles O47: a kept CAST_CLOSE record with no place and with one, and a first activation barred and made. -/
theorem keptRecordsAreOfferedAgain : Obligations.KeptRecordsAreOfferedAgain := by
  refine fun s active quiet => ⟨fun d c part kept body duty => ⟨fun full => ?_, fun room => ?_⟩, ?_, ?_⟩
  · have stays : reofferClose s = s := by
      rw [reofferClose_offers kept, offerClose_full full, ← kept]
    exact leaves_active reofferClose rfl active stays quiet
  · exact leaves_active reofferClose rfl active
      ((reofferClose_offers kept).trans (offerClose_room room body duty)) quiet
  · exact fun barred => if_neg (mt (canActivate_iff s).1 barred)
  · intro ready
    have ⟨_, _, _, room, _⟩ := ready
    exact leaves_active firstActivate (if_pos ((canActivate_iff s).2 ready)) active (firstActivate_room room) quiet

end Sys2Proof.Machine
end

section
/-! The settle timer and the entry to CHARGING (R123, R125). -/

namespace Sys2Proof.Machine

variable {s t : State} {c : Cast} {start : LoopTime}

/-! ### The entry to CHARGING (R125) -/

/-- The state with the cast's record as CHARGING begins with it. -/
def chargingBegun (c : Cast) (s : State) : State :=
  { s with castMeter := { s.castMeter with record := some (c.charging s) } }

theorem enterCharging_offers (hc : s.castMeter.record = some c) :
    enterCharging s = offerClose (newDraft (.castClose (c.charging s)) c.brew s) (chargingBegun c s) := by
  have begun : withCast (fun _ => c.charging s) s = chargingBegun c s := by
    unfold withCast
    rw [hc]
    rfl
  unfold enterCharging
  simp only [hc, begun]
  rfl

/-- With a place in the write queue the record joins it in the block reserved for it. -/
theorem enterCharging_room (hc : s.castMeter.record = some c) (room : s.journal.queue.length < 4) :
    enterCharging s = closeTaken (newDraft (.castClose (c.charging s)) c.brew s) c.number (meteredDuty s c.v20 c.gv)
      (chargingBegun c s) := by
  rw [enterCharging_offers hc]
  exact offerClose_room (s := chargingBegun c s) (c := c.charging s) room rfl rfl

/-- With none it is kept. -/
theorem enterCharging_full (hc : s.castMeter.record = some c) (full : 4 ≤ s.journal.queue.length) :
    enterCharging s = { s with castMeter := { s.castMeter with
      record := some (c.charging s), keptClose := some (newDraft (.castClose (c.charging s)) c.brew s) } } := by
  rw [enterCharging_offers hc]
  exact offerClose_full (s := chargingBegun c s) full

/-! ### The timer (R123) -/

theorem strokeOutstanding_iff (hc : s.castMeter.record = some c) :
    strokeOutstanding s = true ↔ ∃ p, c.pitch = some p ∧ p.outstanding = true := by
  unfold strokeOutstanding pitch?
  rw [hc, Option.bind_some, Option.any_eq_true]

theorem settleDue_iff (hc : s.castMeter.record = some c) (settling : c.state = .settling)
    (timer : c.settleTimer = some start) :
    settleDue s = true ↔ (lineRow s.tables).settle ≤ (s.loopTime - start).toNat := by
  unfold settleDue
  rw [hc, Option.any_some, settling, timer, beq_self_eq_true, Bool.true_and]
  exact timerDue_some ..

/-- The record once its settle timer has run out. -/
def Cast.settleRunOut (c : Cast) : Cast := { c with settleTimer := none, settleOver := true }

def settleRunOut (c : Cast) (s : State) : State :=
  { s with castMeter := { s.castMeter with record := some c.settleRunOut } }

theorem settleExpiry_eq (hc : s.castMeter.record = some c) : settleExpiry s = maybeCharge (settleRunOut c s) := by
  have ran : withCast (fun c => { c with settleTimer := none, settleOver := true }) s = settleRunOut c s := by
    unfold withCast
    rw [hc]
    rfl
  rw [settleExpiry, ran]

theorem maybeCharge_waits (outstanding : strokeOutstanding s = true) : maybeCharge s = s := by
  unfold maybeCharge
  split
  · rfl
  · refine if_neg fun ready => ?_
    obtain ⟨_, _, free⟩ := ready
    rw [free] at outstanding
    cases outstanding

theorem maybeCharge_charges (hc : s.castMeter.record = some c) (settling : c.state = .settling)
    (ended : c.settleOver = true) (free : strokeOutstanding s = false) : maybeCharge s = enterCharging s := by
  unfold maybeCharge
  simp only [hc]
  exact if_pos ⟨settling, ended, free⟩

/-- Settles O44: the interval not over, a stroke outstanding, and the cast that enters CHARGING. -/
theorem settleTimerExpires : Obligations.SettleTimerExpires := by
  intro c start s active quiet hc settling timer passed stroke
  have due := settleDue_iff hc settling timer
  have outstanding : strokeOutstanding (settleRunOut c s) = true ↔ stroke :=
    strokeOutstanding_iff (c := c.settleRunOut) rfl
  have expiry := settleExpiry_eq hc
  refine ⟨fun early => if_neg fun x => absurd (due.1 x) (by omega), fun late waits => ?_, fun late free => ?_⟩
  · rw [maybeCharge_waits (outstanding.2 waits)] at expiry
    exact leaves_active settleExpiry (if_pos (due.2 late)) active expiry quiet
  · have none : strokeOutstanding (settleRunOut c s) = false := Bool.eq_false_iff.2 (mt outstanding.1 free)
    rw [maybeCharge_charges (c := c.settleRunOut) rfl settling rfl none] at expiry
    have run : exec .settleTimerExpiry s = .next (settle (enterCharging (settleRunOut c s))) := by
      refine (if_pos (due.2 late)).trans (congrArg Host.Outcome.next ?_)
      rw [whenActive, if_pos active, expiry]
    have works : (settle (enterCharging (settleRunOut c s))).works = s.works :=
      (settle_works _).trans (enterCharging_works _)
    have charging : (settle (enterCharging (settleRunOut c s))).castMeter.record
        = some (c.settleRunOut.charging (settleRunOut c s)) :=
      settle_charging (enterCharging_record rfl) rfl
    refine ⟨_, _, meteredDuty s c.v20 c.gv, run, works, charging, rfl, rfl, rfl, rfl, rfl, rfl, rfl, rfl, rfl, rfl,
      fun room => ?_, fun full => ?_⟩
    · have entered := enterCharging_room (s := settleRunOut c s) (c := c.settleRunOut) rfl room
      have rest := settle_rest (s := enterCharging (settleRunOut c s)) (by rw [entered]; exact quiet)
      rw [entered] at rest ⊢
      exact ⟨(congrArg (fun u : State => u.castMeter.keptClose) rest :), ⟨_, (congrArg State.journal rest :), rfl⟩,
        (congrArg (fun u : State => u.duty.charges) rest :)⟩
    · have entered := enterCharging_full (s := settleRunOut c s) (c := c.settleRunOut) rfl full
      have rest := settle_rest (s := enterCharging (settleRunOut c s)) (by rw [entered]; exact quiet)
      rw [entered] at rest ⊢
      exact ⟨(congrArg State.journal rest :), (congrArg State.duty rest :), _,
        (congrArg (fun u : State => u.castMeter.keptClose) rest :), rfl⟩

end Sys2Proof.Machine
end

section
/-! A refused open attempt made again (R112 to R114). -/

namespace Sys2Proof.Machine

variable {s t : State} {b : Brew} {r old : OpenRefusal} {st : StepRow} {n : Nat}

/-! ### A brew found by its number (R52) -/

theorem brew?_of_brews (h : t.brews = s.brews) (n : Nat) : brew? t n = brew? s n := by
  unfold brew? brewRow?
  rw [h]

theorem number_of_brew? (found : brew? s n = some b) : b.number = n := by
  unfold brew? at found
  obtain ⟨row, searched, held⟩ := Option.bind_eq_some_iff.1 found
  obtain ⟨inside, named, _⟩ := List.findIdx?_eq_some_iff_getElem.1 searched
  rw [List.getD_eq_getElem?_getD, List.getElem?_eq_getElem inside, Option.getD_some] at held
  rw [held, Option.any_some, beq_iff_eq] at named
  exact named

/-- A brew whose record changes is found with the change. -/
theorem brew?_changed {f : Brew → Brew} (hf : ∀ b, (f b).number = b.number) (found : brew? s n = some b) :
    brew? (withBrew n f s) n = some (f b) := by
  rw [brew?_withBrew hf, found, Option.map_some]

/-! ### The nine checks (R112) -/

/-- The first check of a list decides, or the rest does. -/
theorem firstFailed_cons (passed : Bool) (r : OpenRefusal) (l : List (Bool × OpenRefusal)) :
    (((passed, r) :: l).find? fun c => !c.1).map Prod.snd
      = if passed = false then some r else (l.find? fun c => !c.1).map Prod.snd := by
  cases passed <;> rfl

theorem openRefusal_eq (s : State) : openRefusal s =
    let j := s.journal
    let line := lineRow s.tables
    if j.mount ≠ .ready then some .journalNotReady
    else if s.pins.protect = true then some .journalProtected
    else if j.failed = true then some .journalFailed
    else if freeRoom j < 2 then some .journalFull
    else if 4 ≤ j.queue.length then some .journalBusy
    else if j.orphans ≠ [] then some .orphans
    else if s.duty.tariff ≠ .active then some .noTariff
    else if lineValid s.tables = false ∨ correctionValid s.tables = false then some .lineInvalid
    else if (entryOf s line.temperature).current = none ∨ (entryOf s line.gravity).current = none then
      some .noLineValue
    else none := by
  unfold openRefusal openChecks
  simp only [firstFailed_cons, queueHasPlace, beq_eq_false_iff_ne, Bool.not_eq_false', decide_eq_false_iff_not, not_le,
    not_lt, List.isEmpty_eq_false_iff, Bool.and_eq_false_iff, Option.isSome_eq_false_iff, Option.isNone_iff_eq_none,
    List.find?_nil, Option.map_none]

/-- An attempt that no check refuses has a place in the write queue. -/
theorem room_of_unrefused (free : openRefusal s = none) : s.journal.queue.length < 4 := by
  have passed := List.find?_eq_none.1 (Option.map_eq_none_iff.1 free)
  have place := passed (queueHasPlace s, .journalBusy) (by simp [openChecks])
  rw [Bool.not_eq_true', Bool.not_eq_false] at place
  exact (queueHasPlace_iff s).1 place

/-! ### The attempt -/

theorem castAttempt_refused (closed : castOpen s = false) (refusal : openRefusal s = some r) :
    castAttempt s = (some r, s) := by
  unfold castAttempt
  simp only [closed, refusal, Bool.false_eq_true, if_false]

theorem castAttempt_opens (closed : castOpen s = false) (free : openRefusal s = none)
    (occupant : occupantBrew? s .whirlpool = some b) : castAttempt s = (none, openCast b s) := by
  unfold castAttempt
  simp only [closed, free, occupant, Bool.false_eq_true, if_false]

/-- The whirlpool's step goes on, no longer BLOCKED (R114). -/
def castStepRuns (s : State) : State :=
  withSeq .whirlpool (fun q => { q with state := .running, blocked := none }) s

theorem takeEffect_refused (step : currentStep s .whirlpool = some st) (kind : st.kind = .cast)
    (refused : castAttempt s = (some r, t)) :
    takeEffect .whirlpool s = (false, blockStep .whirlpool (.castRefused r) t) := by
  unfold takeEffect
  simp only [step, kind, refused]

theorem takeEffect_attempted (step : currentStep s .whirlpool = some st) (kind : st.kind = .cast)
    (attempted : castAttempt s = (none, t)) : takeEffect .whirlpool s = (false, castStepRuns t) := by
  unfold takeEffect
  simp only [step, kind, attempted]
  rfl

theorem advance_stays {v : Vessel} (k : Nat) (stays : takeEffect v s = (false, t)) : advance (k + 1) v s = t := by
  unfold advance
  rw [stays]

/-! ### The cast that opens (R114) -/

/-- The cast record an attempt creates, with the next cast number. -/
def castCreated (b : Brew) (s : State) : Cast := newCast (nextCastNumber s.journal.castCount) b s

/-- The CAST_OPEN record queued, and a block more reserved for the CAST_CLOSE of the cast that is created. -/
def castBegun (b : Brew) (s : State) : State :=
  { s with
    castMeter := { s.castMeter with record := some (castCreated b s) }
    journal := { s.journal with
      queue := s.journal.queue ++ [newDraft (.castOpen (openBody (castCreated b s) b)) b.number s]
      castCount := nextCastNumber s.journal.castCount
      reservations := s.journal.reservations + 2 } }

theorem openCast_room (b : Brew) (room : s.journal.queue.length < 4) :
    openCast b s = changeBrewState b.number .casting (.vessel .whirlpool)
      (withBrew b.number (fun x => { x with castNo := some (castCreated b s).number }) (castBegun b s)) := by
  unfold openCast
  simp only [offerRecord_room _ room]
  rfl

theorem openCast_brew (room : s.journal.queue.length < 4) (found : brew? s b.number = some b) :
    brew? (openCast b s) b.number
      = some { b with castNo := some (nextCastNumber s.journal.castCount), state := .casting } := by
  have begun : brew? (castBegun b s) b.number = some b := (brew?_of_brews rfl _).trans found
  rw [openCast_room b room]
  exact changeBrewState_brew?
    (brew?_changed (f := fun x => { x with castNo := some (castCreated b s).number }) (fun _ => rfl) begun) _ _

theorem newPitch_eq_none_iff (t : Tables) (b : Brew) : newPitch t b = none ↔ b.strain = 0 := by
  unfold newPitch
  split <;> simp [*]

theorem openCast_record (room : s.journal.queue.length < 4) :
    (openCast b s).castMeter.record = some (castCreated b s) := by
  rw [openCast_room b room, changeBrewState, castMeter_of_bare (raise_bare ..)]
  rfl

theorem openCast_journal (room : s.journal.queue.length < 4) : (openCast b s).journal = (castBegun b s).journal := by
  rw [openCast_room b room]
  exact (congrArg State.journal (raise_bare ..) :)

theorem openCast_tells (room : s.journal.queue.length < 4) : (openCast b s).tells = s.tells := by
  rw [openCast_room b room]
  exact raise_tells ..

/-! ### The command (R113) -/

theorem castOpen_eq_false (closed : ∀ k, s.castMeter.record = some k → k.state = .closed) : castOpen s = false := by
  rw [← Bool.not_eq_true, castOpen_iff]
  rintro ⟨k, hk, opened⟩
  exact opened (closed k hk)

theorem canRetryOpen_blocked (blocked : s.seqs.whirlpool.state = .blocked)
    (reason : s.seqs.whirlpool.blocked = some (.castRefused old)) : canRetryOpen s = true := by
  have state : (s.seqs.get .whirlpool).state = .blocked := blocked
  have cause : (s.seqs.get .whirlpool).blocked = some (.castRefused old) := reason
  simp [canRetryOpen, state, cause, BlockReason.isCast]

/-- The retry's effect is the step's, once the blocks have settled. -/
theorem castOpenRetry_runs (active : s.mode = .active) (can : canRetryOpen s = true)
    (effect : takeEffect .whirlpool s = (false, t)) : exec .castOpenRetry s = .next (settle t) := by
  refine (if_pos can).trans (congrArg Host.Outcome.next ?_)
  rw [whenActive, if_pos active, advance_stays 255 effect]

/-- From `s` to `t` an open attempt has created the cast of a brew, and the step that made it runs (R114). -/
structure CastOpens (b : Brew) (s t : State) : Prop where
  record : t.castMeter.record = some (castCreated b s)
  journal : t.journal = (castBegun b s).journal
  brew : brew? t b.number = some { b with castNo := some (nextCastNumber s.journal.castCount), state := .casting }
  vessels : t.vessels = s.vessels
  state : t.seqs.whirlpool.state = .running
  blocked : t.seqs.whirlpool.blocked = none
  phase : t.seqs.whirlpool.phase = s.seqs.whirlpool.phase

theorem openCast_settles (room : s.journal.queue.length < 4) (quiet : s.tells = [])
    (found : brew? s b.number = some b) : CastOpens b s (settle (castStepRuns (openCast b s))) := by
  have rest : (settle (castStepRuns (openCast b s))).rest = _ := settle_rest ((openCast_tells room).trans quiet)
  have phase : (openCast b s).seqs.whirlpool.phase = s.seqs.whirlpool.phase :=
    congrArg Prod.fst (congrFun (stage_of_works (openCast_works b s)) .whirlpool)
  have vessels : (openCast b s).vessels = s.vessels := vessels_of_works (openCast_works b s)
  exact {
    record := (congrArg (fun u : State => u.castMeter.record) rest :).trans (openCast_record room)
    journal := (journal_of_rest rest).trans (openCast_journal room)
    brew := (brew?_of_brews (congrArg State.brews rest :) b.number).trans (openCast_brew room found)
    vessels := (congrArg State.vessels rest :).trans vessels
    state := (congrArg (fun u : State => u.seqs.whirlpool.state) rest :)
    blocked := (congrArg (fun u : State => u.seqs.whirlpool.blocked) rest :)
    phase := (congrArg (fun u : State => u.seqs.whirlpool.phase) rest :).trans phase }

/-- Settles O42: what the step leaves alone, the attempt refused by the first check that fails, and the cast opened. -/
theorem castOpenRetries : Obligations.CastOpenRetries := by
  intro n b st old s active quiet q blocked why step kind occupant found closed j line reason
  have shut := castOpen_eq_false closed
  have reasonIs : openRefusal s = reason := openRefusal_eq s
  have can := canRetryOpen_blocked blocked why
  have occupied : occupantBrew? s .whirlpool = some b := by
    unfold occupantBrew? occupantOf
    rw [show (s.vessels.get .whirlpool).occupant = some n from occupant, Option.bind_some, found]
  have runs {t : State} (taken : takeEffect .whirlpool s = (false, t)) : Runs .whirlpool s (settle t) := by
    have taking := takeEffect_runs .whirlpool s
    rw [taken] at taking
    exact taking.keep (settle_outer t) (settle_seat t)
  cases refusal : openRefusal s with
  | some r =>
    have effect := takeEffect_refused step kind (castAttempt_refused shut refusal)
    have rest : (settle (blockStep .whirlpool (.castRefused r) s)).rest = _ := settle_rest quiet
    refine ⟨_, castOpenRetry_runs active can effect, (runs effect).ruled, (vessels_of_works (settle_works _)).trans rfl,
      fun v apart => congrArg Seat.state ((runs effect).others v apart), fun x given => ?_, fun free => ?_⟩
    · rw [← reasonIs, refusal, Option.some_inj] at given
      subst given
      exact ⟨(congrArg (fun u : State => u.seqs.whirlpool.state) rest :),
        (congrArg (fun u : State => u.seqs.whirlpool.blocked) rest :),
        (congrArg (fun u : State => u.castMeter.record) rest :), (congrArg State.journal rest :)⟩
    · rw [← reasonIs, refusal] at free
      cases free
  | none =>
    have effect := takeEffect_attempted step kind (castAttempt_opens shut refusal occupied)
    have room := room_of_unrefused refusal
    have o := openCast_settles room quiet (number_of_brew? found ▸ found)
    refine ⟨_, castOpenRetry_runs active can effect, (runs effect).ruled, o.vessels,
      fun v apart => congrArg Seat.state ((runs effect).others v apart), fun x given => ?_, fun _ => ?_⟩
    · rw [← reasonIs, refusal] at given
      cases given
    · rw [o.journal]
      exact ⟨o.state, o.blocked, o.phase,
        ⟨castCreated b s, newDraft (.castOpen (openBody (castCreated b s) b)) b.number s, o.record,
          rfl, rfl, rfl, rfl, rfl, rfl, rfl, rfl, rfl, rfl, rfl, rfl, rfl, rfl, newPitch_eq_none_iff s.tables b,
          rfl, rfl, openBody (castCreated b s) b, rfl, rfl, rfl, rfl, rfl⟩, rfl, rfl, _, o.brew, rfl, rfl⟩

end Sys2Proof.Machine
end

section
/-! Duty and the journal while the Cast Meter, the Pitch Unit and the Boil Unit work (R103, R120, R121, R131), and
CAST_END (R122). -/

namespace Sys2Proof.Machine

variable {s t : State} {c d e : Cast} {rq : Request}

/-! ### Duty and the journal -/

/-- The Duty Accountant's and the Journal Port's records. -/
def State.books (s : State) : Duty × Journal := (s.duty, s.journal)

theorem books_of_bare (h : t.bare = s.bare) : t.books = s.books :=
  Prod.ext (congrArg State.duty h :) (congrArg State.journal h :)

@[simp] theorem raise_books (k : EventKind) (u : Subject) (b : Option Nat) (x : EventArg) (s : State) :
    (raise k u b x s).books = s.books := books_of_bare (raise_bare ..)

@[simp] theorem raiseCast_books (k : EventKind) (x : EventArg) (s : State) : (raiseCast k x s).books = s.books :=
  books_of_bare (raiseCast_bare ..)

@[simp] theorem withCast_books (f : Cast → Cast) (s : State) : (withCast f s).books = s.books := rfl

@[simp] theorem drivePump_books (n : Nat) (s : State) : (drivePump n s).books = s.books := by
  have offered := books_of_bare (offerDrive_bare (lineRow s.tables).pump n .castMeter s)
  exact offered

@[simp] theorem pausedEntry_books (s : State) : (pausedEntry s).books = s.books := by
  unfold pausedEntry
  split
  · simp
  · rfl

@[simp] theorem reviewPauses_books (s : State) : (reviewPauses s).books = s.books := by
  unfold reviewPauses
  split
  · rfl
  · rename_i c _
    cases c.state with
    | opening | settling | charging | closed => rfl
    | metering | paused => simp only; split <;> simp

@[simp] theorem enterSettling_books (s : State) : (enterSettling s).books = s.books := by
  simp [enterSettling]

theorem endTrigger_books (cause : EndCause) (s : State) : (endTrigger cause s).books = s.books := by
  unfold endTrigger
  split
  · rfl
  · rename_i c _
    cases c.state with
    | opening | settling | charging | closed => rfl
    | metering | paused => simp

theorem tryIssue_books (s : State) : (tryIssue s).books = s.books := by
  unfold tryIssue
  split
  · rfl
  · split
    · rfl
    · rename_i c _ _ _ _
      split
      · have offered := books_of_bare (offerDrive_bare (lineRow s.tables).dose 1000 (.pitchUnit c.number) s)
        split <;> (rename_i left; rw [left] at offered; exact offered)
      · rfl

theorem doseFrameLeft_books (n : Nat) (s : State) : (doseFrameLeft n s).books = s.books := by
  unfold doseFrameLeft
  simp only
  rw [tryIssue_books]
  split <;> rfl

theorem recordMissed_books (n i : Nat) (x : MissCause) (s : State) : (recordMissed n i x s).books = s.books :=
  (books_of_bare (raiseBoil_bare ..)).trans rfl

theorem recordFired_books (n i : Nat) (s : State) : (recordFired n i s).books = s.books :=
  (books_of_bare (raiseBoil_bare ..)).trans rfl

theorem pumpSend_books (k : Nat) (s : State) : (pumpSend k s).books = s.books := by
  induction k generalizing s with
  | zero => rfl
  | succ k ih =>
    unfold pumpSend
    split
    · rfl
    · split
      · rfl
      · rename_i e _ _
        split
        · exact ih _
        · have offered := books_of_bare (offerAddition_bare e s)
          split <;> (rename_i left; rw [left] at offered)
          · exact (ih _).trans ((recordMissed_books ..).trans offered)
          · exact offered
          · exact (recordFired_books ..).trans offered
          · exact (ih _).trans ((recordFired_books ..).trans offered)

theorem drainTells_books (k : Nat) (s : State) : (drainTells k s).books = s.books := by
  induction k generalizing s with
  | zero => rfl
  | succ k ih =>
    unfold drainTells
    split
    · rfl
    · rename_i o rest _
      rw [ih]
      cases o with
      | boilUnit => exact pumpSend_books ..
      | pitchUnit n => exact doseFrameLeft_books ..
      | agent | guardUnit | sequencer | castMeter => rfl

/-- The settling of the blocks charges nothing and writes nothing. -/
@[simp] theorem settle_books (s : State) : (settle s).books = s.books := by
  have refreshed : (vessels.foldl refreshSync (drainTells 64 s)).books = (drainTells 64 s).books :=
    (congrArg State.books (refreshAll_rest vessels (drainTells 64 s)) :)
  have conditions := books_of_bare (syncConditions_bare (vessels.foldl refreshSync (drainTells 64 s)))
  exact conditions.trans (refreshed.trans (drainTells_books 64 s))

/-! ### The record a trigger leaves (R121) -/

theorem endTrigger_opening (cause : EndCause) (hc : s.castMeter.record = some c) (opening : c.state = .opening) :
    endTrigger cause s = withCast (Cast.endBy cause) s := by
  unfold endTrigger
  simp only [hc, opening]

theorem endTrigger_ended (cause : EndCause) (hc : s.castMeter.record = some c)
    (state : c.state = .settling ∨ c.state = .charging) : endTrigger cause s = s := by
  unfold endTrigger
  simp only [hc]
  obtain e | e := state <;> rw [e]

theorem Cast.endBy_kept (cause : EndCause) (c : Cast) :
    (c.endBy cause).state = c.state ∧ (c.endBy cause).gv = c.gv := by
  unfold Cast.endBy
  split <;> exact ⟨rfl, rfl⟩

theorem Cast.endBy_request (h : c.endCause = none) : (c.endBy .request).flags.requestEnd = true := by
  unfold Cast.endBy
  rw [h]
  exact Bool.or_true _

/-- The record CAST_END leaves of a cast that goes on: one not yet opened keeps the end cause for the write's
completion, any other begins to settle (R121, R122). -/
def Cast.ended (now : LoopTime) (c : Cast) : Cast :=
  if c.state = .opening then c.endBy .request else (c.endBy .request).settled now

theorem Cast.ended_opening (now : LoopTime) (opening : c.state = .opening) : c.ended now = c.endBy .request :=
  if_pos opening

theorem Cast.ended_settles (now : LoopTime) (opened : c.state ≠ .opening) :
    c.ended now = (c.endBy .request).settled now := if_neg opened

theorem Cast.ended_fields (now : LoopTime) (c : Cast) :
    (c.ended now).number = c.number ∧ (c.ended now).endCause = some (c.endCause.getD .request)
      ∧ (c.ended now).flags = (c.endBy .request).flags ∧ (c.ended now).v20 = c.v20 ∧ (c.ended now).gv = c.gv := by
  obtain ⟨number, v20, endCause⟩ := c.endBy_fields .request
  obtain ⟨_, gv⟩ := c.endBy_kept .request
  unfold Cast.ended
  split <;> exact ⟨number, endCause, rfl, v20, gv⟩

theorem endTrigger_request (hc : s.castMeter.record = some c)
    (going : c.state = .opening ∨ c.state = .metering ∨ c.state = .paused) :
    (endTrigger .request s).steadyCast = some (c.ended s.loopTime).steady := by
  obtain opening | state := going
  · rw [endTrigger_opening .request hc opening, c.ended_opening _ opening]
    exact steadyCast_of_some (withCast_record hc _)
  · rw [endTrigger_steady .request hc state, c.ended_settles _ (by obtain e | e := state <;> rw [e] <;> decide)]

/-- A cast that has not been opened, or is no longer metered, is told from its steady record. -/
theorem Cast.state_of_steady_eq (same : d.steady = e.steady) (state : e.state = .opening ∨ e.state = .settling) :
    d.state = e.state := by
  have steady : d.steady.state = e.steady.state := by rw [same]
  obtain h | h := state <;> cases x : d.state <;> simp [Cast.steady, h, x] at steady ⊢

/-! ### CAST_END (R122) -/

/-- The cast's number and state as CAST_END's REPLY gives them. -/
def Cast.brief (c : Cast) : List Byte := num 4 c.number ++ num 1 (castStateCode c.state)

theorem castBrief_record (hc : s.castMeter.record = some c) : castBrief s = c.brief := by
  unfold castBrief
  rw [hc]
  rfl

theorem serveCastEnd_asked (a : Asks rq .castEnd s) : serveCastEnd rq (taken s) = doCastEnd rq (taken s) := by
  have carries : parseReq (taken s).stationAddress 22 rq.params = some .castEnd := a.carries
  simp only [serveCastEnd, carries]

theorem doCastEnd_none (closed : castOpen s = false) : doCastEnd rq s = answer 22 rq .notFound [] s := by
  unfold doCastEnd
  rw [closed]
  rfl

theorem doCastEnd_open (opened : castOpen s = true) :
    doCastEnd rq s = answer 22 rq .ok (castBrief (endTrigger .request s)) (endTrigger .request s) := if_pos opened

/-- CAST_END on a cast whose record it changes, as the record stands but for what pausing and dosing may touch. -/
theorem castEnd_ends (a : Asks rq .castEnd s) (opened : castOpen (taken s) = true)
    (ends : (endTrigger .request (taken s)).steadyCast = some e.steady)
    (state : e.state = .opening ∨ e.state = .settling) :
    ∃ t d, exec (.castEnd rq) s = .next t ∧ Replied 22 rq .ok d.brief t ∧ t.works = (taken s).works
      ∧ t.castMeter.record = some d ∧ d.steady = e.steady ∧ d.state = e.state ∧ t.books = s.books := by
  let u := endTrigger .request (taken s)
  have run : serveCastEnd rq (taken s) = answer 22 rq .ok (castBrief u) u :=
    (serveCastEnd_asked a).trans (doCastEnd_open opened)
  have settled : (settle (answer 22 rq .ok (castBrief u) u)).steadyCast = some e.steady :=
    (settle_steady _).trans ((steadyCast_of_bare (answer_bare ..)).trans ends)
  obtain ⟨x, before, same⟩ := record_of_steadyCast ends
  obtain ⟨d, after, steady⟩ := record_of_steadyCast settled
  have brief : castBrief u = d.brief := by
    have number : x.number = d.number := (congrArg Cast.number (same.trans steady.symm) :)
    rw [castBrief_record before, Cast.brief, Cast.brief, number, Cast.state_of_steady_eq same state,
      Cast.state_of_steady_eq steady state]
  refine ⟨_, d, congrArg Host.Outcome.next ?_, brief ▸ replied_settled .., (settled_works ..).trans
    (endTrigger_works ..), after, steady, Cast.state_of_steady_eq steady state, ?_⟩
  · exact (onRequest_takes (q := queuedOf 22 rq) (serveCastEnd rq) a.toTakes).trans (congrArg settle run)
  · rw [settle_books, books_of_bare (answer_bare ..), endTrigger_books]
    rfl

/-- Settles O46: no open cast, a cast that has ended already, and one that the request ends. -/
theorem castEndRequests : Obligations.CastEndRequests := by
  intro rq s a i brief
  refine ⟨fun closed => ?_, fun c hc => ⟨fun ended => ?_, fun going => ?_⟩⟩
  · exact answers_of (serveCastEnd rq) rfl a.toTakes
      ((serveCastEnd_asked a).trans (doCastEnd_none (castOpen_eq_false closed))) a.tells a.arbiter
  · have opened : castOpen (taken s) = true :=
      (castOpen_iff _).2 ⟨c, hc, by obtain e | e := ended <;> rw [e] <;> decide⟩
    have run := (serveCastEnd_asked a).trans (doCastEnd_open opened)
    rw [endTrigger_ended .request (s := taken s) hc ended, castBrief_record (s := taken s) hc] at run
    exact answers_of (serveCastEnd rq) rfl a.toTakes run a.tells a.arbiter
  · have opened : castOpen (taken s) = true :=
      (castOpen_iff _).2 ⟨c, hc, by obtain e | e | e := going <;> rw [e] <;> decide⟩
    have state : (c.ended s.loopTime).state = .opening ∨ (c.ended s.loopTime).state = .settling := by
      by_cases opening : c.state = .opening
      · rw [c.ended_opening _ opening, (c.endBy_kept .request).1]
        exact .inl opening
      · exact .inr (by rw [c.ended_settles _ opening]; rfl)
    have ends : (endTrigger .request (taken s)).steadyCast = some (c.ended s.loopTime).steady :=
      endTrigger_request (s := taken s) hc going
    obtain ⟨t, d, run, replied, works, record, steady, stands, books⟩ := castEnd_ends a opened ends state
    obtain ⟨number, endCause, flags, v20, gv⟩ := c.ended_fields s.loopTime
    refine ⟨t, d, run, replied, works, record, (Cast.read_of_steady steady Cast.number).trans number,
      (Cast.read_of_steady steady Cast.endCause).trans ?_, fun first => ?_, fun opening => ?_, fun begun => ?_,
      (Cast.read_of_steady steady Cast.v20).trans v20, (Cast.read_of_steady steady Cast.gv).trans gv,
      congrArg Prod.snd books, congrArg Prod.fst books⟩
    · rw [endCause]
      cases c.endCause <;> rfl
    · rw [Cast.read_of_steady steady Cast.flags, flags, Cast.endBy_request first]
    · rw [stands, c.ended_opening _ opening, (c.endBy_kept .request).1, opening]
    · rw [c.ended_settles _ begun] at steady stands
      exact ⟨stands, Cast.read_of_steady steady Cast.settleTimer, Cast.read_of_steady steady Cast.settleOver⟩

end Sys2Proof.Machine
end

section
/-! The cast's record while notices are delivered: a dose frame that has left changes its pitch part alone (R131,
R132). -/

namespace Sys2Proof.Machine

variable {s t : State} {c d : Cast}

/-- A cast record with its pitch part set aside. -/
def Cast.unpitched (c : Cast) : Cast := { c with pitch := none }

def State.unpitchedCast (s : State) : Option Cast := s.castMeter.record.map Cast.unpitched

theorem unpitched_of_record (h : t.castMeter.record = s.castMeter.record) : t.unpitchedCast = s.unpitchedCast := by
  unfold State.unpitchedCast
  rw [h]

theorem unpitched_of_bare (h : t.bare = s.bare) : t.unpitchedCast = s.unpitchedCast :=
  unpitched_of_record (by rw [castMeter_of_bare h])

theorem withPitch_unpitched (f : PitchPart → PitchPart) (s : State) :
    (withPitch f s).unpitchedCast = s.unpitchedCast := by
  unfold State.unpitchedCast withPitch
  rw [withCast_castMeter, Option.map_map]
  rfl

theorem tryIssue_unpitched (s : State) : (tryIssue s).unpitchedCast = s.unpitchedCast := by
  unfold tryIssue
  split
  · rfl
  · split
    · rfl
    · rename_i c _ _ _ _
      split
      · have offered := unpitched_of_bare (offerDrive_bare (lineRow s.tables).dose 1000 (.pitchUnit c.number) s)
        split <;> (rename_i left; rw [left] at offered)
        · exact offered
        all_goals exact (withPitch_unpitched ..).trans offered
      · rfl

theorem doseFrameLeft_unpitched (n : Nat) (s : State) : (doseFrameLeft n s).unpitchedCast = s.unpitchedCast := by
  unfold doseFrameLeft
  simp only
  rw [tryIssue_unpitched]
  split
  · exact withPitch_unpitched ..
  · rfl

theorem drainTells_unpitched (k : Nat) (s : State) : (drainTells k s).unpitchedCast = s.unpitchedCast := by
  induction k generalizing s with
  | zero => rfl
  | succ k ih =>
    unfold drainTells
    split
    · rfl
    · rename_i o rest _
      rw [ih]
      cases o with
      | boilUnit => exact unpitched_of_record (congrArg CastMeter.record (boilFrameLeft_castMeter _))
      | pitchUnit n => exact doseFrameLeft_unpitched n _
      | agent | guardUnit | sequencer | castMeter => rfl

theorem settle_unpitched (s : State) : (settle s).unpitchedCast = s.unpitchedCast := by
  have conditions := unpitched_of_bare (syncConditions_bare (vessels.foldl refreshSync (drainTells 64 s)))
  have refreshed := unpitched_of_record (congrArg CastMeter.record (refreshAll_castMeter vessels (drainTells 64 s)))
  exact conditions.trans (refreshed.trans (drainTells_unpitched 64 s))

/-- The settling of the blocks moves no cast to another state. -/
theorem settle_castState (hc : s.castMeter.record = some c) :
    ∃ d, (settle s).castMeter.record = some d ∧ d.number = c.number ∧ d.state = c.state := by
  have same : (settle s).unpitchedCast = some c.unpitched := by
    rw [settle_unpitched, State.unpitchedCast, hc, Option.map_some]
  obtain ⟨d, hd, e⟩ := Option.map_eq_some_iff.1 same
  exact ⟨d, hd, (congrArg Cast.number e :), (congrArg Cast.state e :)⟩

end Sys2Proof.Machine
end

section
/-! The completion of a journal record in the account and the journal (R149, R151, R154, R156, R165). -/

namespace Sys2Proof.Machine

variable {s t : State} {c : Charge} {more : List Charge}

/-! ### Deferred replies (R171) -/

/-- A deferred REPLY touches the Management Agent and what an offer may touch. -/
theorem sendDeferred_agent (code : Nat) (r : Result) (data : List Byte) (s : State) :
    ∃ a : Agent, (sendDeferred code r data s).bare = ({ s with agent := a } : State).bare := by
  unfold sendDeferred
  split
  · exact ⟨_, reply_bare ..⟩
  · exact ⟨s.agent, rfl⟩

theorem sendDeferred_books (code : Nat) (r : Result) (data : List Byte) (s : State) :
    (sendDeferred code r data s).books = s.books := by
  obtain ⟨a, same⟩ := sendDeferred_agent code r data s
  exact books_of_bare (s := { s with agent := a }) same

theorem sendDeferred_tables (code : Nat) (r : Result) (data : List Byte) (s : State) :
    (sendDeferred code r data s).tables = s.tables := by
  obtain ⟨a, same⟩ := sendDeferred_agent code r data s
  exact (congrArg State.tables same :)

/-- The reply of a period close, if one is deferred, is sent, and no close is under way (R154). -/
theorem endClosing_books (q : Option Seq) (s : State) :
    (endClosing q s).books = ({ s.duty with closing := none }, s.journal) := by
  unfold endClosing
  split
  · exact sendDeferred_books ..
  · rename_i none
    rw [← none]
    rfl

theorem endClosing_tables (q : Option Seq) (s : State) : (endClosing q s).tables = s.tables := by
  unfold endClosing
  split
  · exact sendDeferred_tables ..
  · rfl

/-! ### Charges (R151) -/

theorem takeCharge_bare (brew : Nat) (charges : s.duty.charges = c :: more) : (takeCharge brew s).bare
    = { s.bare with duty := { s.duty with account := s.duty.account.take c.dl c.cdl c.d, charges := more } } := by
  unfold takeCharge
  rw [charges]
  exact raise_bare ..

theorem takeCharge_books (brew : Nat) (charges : s.duty.charges = c :: more) : (takeCharge brew s).books
    = ({ s.duty with account := s.duty.account.take c.dl c.cdl c.d, charges := more }, s.journal) := by
  have same := takeCharge_bare brew charges
  exact Prod.ext (congrArg State.duty same :) (congrArg State.journal same :)

theorem takeCharge_journal (brew : Nat) (s : State) : (takeCharge brew s).journal = s.journal := by
  unfold takeCharge
  split
  · exact (congrArg State.journal (raise_bare ..) :)
  · rfl

/-! ### The records -/

theorem activateTariff_duty (image : TariffImage) (q : Seq) (s : State) :
    (activateTariff image q s).duty = { s.duty with tariff := .active, active := image, activeSeq := q } := by
  unfold activateTariff
  simp only
  split <;> rfl

theorem activateTariff_journal (image : TariffImage) (q : Seq) (s : State) :
    (activateTariff image q s).journal = s.journal := by
  unfold activateTariff
  simp only
  split <;> rfl

theorem activateTariff_tables (image : TariffImage) (q : Seq) (s : State) : (activateTariff image q s).tables
    = if s.duty.bankTouched then s.tables else { s.tables with tariff := zeroTable 13 5 } :=
  apply_ite State.tables (s.duty.bankTouched = true) _ _

theorem tariffComplete_books (image : TariffImage) (q : Seq) (s : State) : (tariffComplete image q s).books
    = ({ s.duty with tariff := .active, active := image, activeSeq := q, closing := none }, s.journal) := by
  rw [tariffComplete, endClosing_books, activateTariff_duty, activateTariff_journal]

theorem tariffComplete_tables (image : TariffImage) (q : Seq) (s : State) : (tariffComplete image q s).tables
    = if s.duty.bankTouched then s.tables else { s.tables with tariff := zeroTable 13 5 } := by
  rw [tariffComplete, endClosing_tables, activateTariff_tables]

/-- The state with a period closed: the account of the next, and the close kept as the last (R154). -/
def periodEnded (b : CloseBody) (q : Seq) (s : State) : State :=
  { s with
    duty := { s.duty with account := s.duty.account.closePeriod b.yearEnd }
    journal := { s.journal with
      lastClose := some { seq := q, period := b.period, ytd := b.ytd, yearEnd := b.yearEnd } } }

theorem periodComplete_books (b : CloseBody) (q : Seq) (s : State) :
    (periodComplete b q s).duty.account = s.duty.account.closePeriod b.yearEnd
      ∧ (periodComplete b q s).journal = (periodEnded b q s).journal := by
  let told := raise .periodClosed .none none (.num b.period) (periodEnded b q s)
  have complete : periodComplete b q s
      = if told.duty.closing.any Closing.withTariff then told else endClosing none told := rfl
  obtain ⟨duty, journal⟩ := Prod.ext_iff.1 (raise_books .periodClosed .none none (.num b.period) (periodEnded b q s))
  obtain ⟨ended, kept⟩ := Prod.ext_iff.1 (endClosing_books none told)
  rw [complete]
  split
  · exact ⟨congrArg Duty.account duty, journal⟩
  · exact ⟨(congrArg Duty.account ended).trans (congrArg Duty.account duty), kept.trans journal⟩

theorem settledComplete_journal (b : SettledBody) (brew : Nat) (q : Seq) (s : State) :
    (settledComplete b brew q s).journal
      = { s.journal with orphans := s.journal.orphans.filter fun o => o.cast != b.cast } :=
  (congrArg Prod.snd (sendDeferred_books ..)).trans (takeCharge_journal ..)

theorem settledComplete_duty (b : SettledBody) (brew : Nat) (q : Seq) (charges : s.duty.charges = c :: more) :
    (settledComplete b brew q s).duty
      = { s.duty with account := s.duty.account.take c.dl c.cdl c.d, charges := more } :=
  (congrArg Prod.fst (sendDeferred_books ..)).trans
    (congrArg Prod.fst (takeCharge_books (s := withJournal _ s) brew charges))

theorem releaseComplete_books (b : ReleaseBody) (q : Seq) (s : State) :
    (releaseComplete b q s).books = (s.duty, { s.journal with tail := b.releasedTo }) := sendDeferred_books ..

end Sys2Proof.Machine
end

section
/-! A cast that opens, and one that closes, at the completion of its record (R69, R115, R126). -/

namespace Sys2Proof.Machine

variable {s t : State} {c : Cast} {b : Brew} {n : Nat}

/-! ### The pause causes (R120) -/

theorem nextPauses_isEmpty_iff (s : State) (c : Cast) :
    (nextPauses s c).isEmpty = true ↔ ∀ p, pauseHolds s c p = false := by
  have listed (p : PauseCause) : p ∈ pauseCauses := by cases p <;> decide
  simp only [nextPauses, List.isEmpty_iff, List.append_eq_nil_iff, List.filter_eq_nil_iff, Bool.and_eq_true,
    Bool.not_eq_true', not_and, Bool.not_eq_true, List.contains_eq_mem, decide_eq_false_iff_not, not_not]
  constructor
  · rintro ⟨kept, joined⟩ p
    by_contra holds
    rw [Bool.not_eq_false] at holds
    have stays := kept p (joined p (listed p) holds)
    rw [holds] at stays
    cases stays
  · intro none
    refine ⟨fun p _ => none p, fun p _ holds => ?_⟩
    rw [none p] at holds
    cases holds

/-- A pause cause turns on the brews, the points, the tables and the authorities. -/
theorem pauseHolds_congr (hr : t.ruled = s.ruled) (hb : t.brews = s.brews) (c : Cast) (p : PauseCause) :
    pauseHolds t c p = pauseHolds s c p := by
  have brew (n : Nat) := brew?_of_brews hb n
  have tables : t.tables = s.tables := (congrArg State.tables hr :)
  have fresh (r : Nat) : freshPoint t r = freshPoint s r :=
    (congrArg (fun u : State => freshPoint u r) hr :)
  have authority : (t.vessels.get .whirlpool).authority = (s.vessels.get .whirlpool).authority :=
    (congrArg (fun u : State => u.vessels.whirlpool.authority) hr :)
  cases p <;> simp only [pauseHolds, brew, tables, fresh, authority]

theorem reviewPauses_opening (hc : s.castMeter.record = some c) (opening : c.state = .opening) :
    reviewPauses s = withCast (fun d => { d with pauses := nextPauses s c }) s := by
  unfold reviewPauses
  simp only [hc, opening]

/-! ### The opening write completes (R115) -/

theorem castStepInEffect_ruled (s : State) : (castStepInEffect s).ruled = s.ruled := by
  unfold castStepInEffect
  split
  · exact Eq.trans withVessel_ruled (ruled_of_still (withSeq_still ..))
  · rfl

theorem castStepInEffect_kept (s : State) : (castStepInEffect s).castMeter = s.castMeter
    ∧ (castStepInEffect s).brews = s.brews ∧ (castStepInEffect s).books = s.books := by
  unfold castStepInEffect
  split <;> exact ⟨rfl, rfl, rfl⟩

/-- CAST_OPENED raised and the CAST step in effect. -/
def castTold (c : Cast) (s : State) : State := castStepInEffect (raiseCast .castOpened (.num c.fermenter) s)

theorem castTold_ruled (c : Cast) (s : State) : (castTold c s).ruled = s.ruled :=
  (castStepInEffect_ruled _).trans (ruled_of_still (still_of_bare (raiseCast_bare ..)))

theorem castTold_kept (c : Cast) (s : State) : (castTold c s).castMeter = s.castMeter
    ∧ (castTold c s).brews = s.brews ∧ (castTold c s).books = s.books := by
  obtain ⟨cast, brews, books⟩ := castStepInEffect_kept (raiseCast .castOpened (.num c.fermenter) s)
  have raised := raiseCast_bare .castOpened (.num c.fermenter) s
  exact ⟨cast.trans (castMeter_of_bare raised), brews.trans (brews_of_still (still_of_bare raised)),
    books.trans (books_of_bare raised)⟩

/-- The cast's pauses reviewed as it opens. -/
def castReviewed (c : Cast) (s : State) : State :=
  withCast (fun d => { d with pauses := nextPauses (castTold c s) c }) (castTold c s)

theorem castReviewed_record (hc : s.castMeter.record = some c) : (castReviewed c s).castMeter.record
    = some { c with pauses := nextPauses (castTold c s) c } := by
  obtain ⟨cast, _, _⟩ := castTold_kept c s
  exact withCast_record ((congrArg CastMeter.record cast).trans hc) _

theorem castReviewed_pauseHolds (c d : Cast) (p : PauseCause) (s : State) :
    pauseHolds (castReviewed c s) d p = pauseHolds s d p := by
  obtain ⟨_, brews, _⟩ := castTold_kept c s
  exact pauseHolds_congr (castTold_ruled c s) brews d p

theorem castReviewed_books (c : Cast) (s : State) : (castReviewed c s).books = s.books := by
  obtain ⟨_, _, books⟩ := castTold_kept c s
  exact books

theorem castOpened_eq (hc : s.castMeter.record = some c) (opening : c.state = .opening) : castOpened s =
    if c.flags.interrupted then enterCharging (castReviewed c s)
    else if c.endCause.isSome then enterSettling (castReviewed c s)
    else if (nextPauses (castReviewed c s) c).isEmpty then
      drivePump 1000 (withCast (fun c => { c with state := .metering }) (castReviewed c s))
    else pausedEntry (castReviewed c s) := by
  obtain ⟨cast, _, _⟩ := castTold_kept c s
  have reviewed : reviewPauses (castTold c s) = castReviewed c s :=
    reviewPauses_opening ((congrArg CastMeter.record cast).trans hc) opening
  rw [← reviewed]
  unfold castOpened
  simp only [hc]
  exact if_pos opening

theorem enterSettling_record (hc : s.castMeter.record = some c) :
    ∃ d, (enterSettling s).castMeter.record = some d ∧ d.number = c.number ∧ d.state = .settling := by
  have record := withCast_record hc (Cast.settled s.loopTime)
  have entered : enterSettling s = reviewPauses (withCast (Cast.settled s.loopTime) s) := rfl
  rw [entered, reviewPauses_settling record rfl]
  exact ⟨_, withCast_record record _, rfl, rfl⟩

theorem pausedEntry_record (hc : s.castMeter.record = some c) :
    ∃ d, (pausedEntry s).castMeter.record = some d ∧ d.number = c.number ∧ d.state = .paused := by
  have record := withCast_record ((drivePump_record 0 s).trans hc) fun c =>
    { c with state := .paused, pauseCount := saturate 65535 c.pauseCount }
  unfold pausedEntry
  simp only [hc]
  exact ⟨_, (congrArg CastMeter.record (castMeter_of_bare (raiseCast_bare ..))).trans record, rfl, rfl⟩

/-- Where an opened cast goes: interrupted to CHARGING, ended to SETTLING, and else by its pause causes. -/
theorem castOpened_record (hc : s.castMeter.record = some c) (opening : c.state = .opening) :
    ∃ d, (castOpened s).castMeter.record = some d ∧ d.number = c.number
      ∧ (c.flags.interrupted = true → d.state = .charging)
      ∧ (c.flags.interrupted = false → c.endCause ≠ none → d.state = .settling)
      ∧ (c.flags.interrupted = false → c.endCause = none →
          ((∃ p, pauseHolds s c p = true) → d.state = .paused)
          ∧ ((∀ p, pauseHolds s c p = false) → d.state = .metering)) := by
  have record := castReviewed_record hc
  have clear : (nextPauses (castReviewed c s) c).isEmpty = true ↔ ∀ p, pauseHolds s c p = false := by
    simp only [nextPauses_isEmpty_iff, castReviewed_pauseHolds]
  rw [castOpened_eq hc opening]
  split
  · rename_i interrupted
    exact ⟨_, enterCharging_record record, rfl, fun _ => rfl, fun x => by simp [x] at interrupted,
      fun x => by simp [x] at interrupted⟩
  · rename_i going
    split
    · rename_i ended
      obtain ⟨d, hd, number, settling⟩ := enterSettling_record record
      exact ⟨d, hd, number, fun x => absurd x going, fun _ _ => settling, fun _ x => by simp [x] at ended⟩
    · rename_i endless
      have no (x : c.endCause ≠ none) : False := endless (Option.isSome_iff_ne_none.2 x)
      split
      · rename_i free
        refine ⟨_, (drivePump_record ..).trans (withCast_record record _), rfl, fun x => absurd x going,
          fun _ x => (no x).elim, fun _ _ => ⟨fun ⟨p, holds⟩ => ?_, fun _ => rfl⟩⟩
        rw [clear.1 free p] at holds
        cases holds
      · rename_i held
        obtain ⟨d, hd, number, paused⟩ := pausedEntry_record record
        exact ⟨d, hd, number, fun x => absurd x going, fun _ x => (no x).elim,
          fun _ _ => ⟨fun _ => paused, fun x => absurd (clear.2 x) held⟩⟩

theorem enterCharging_journal (hc : s.castMeter.record = some c) :
    ∃ queue, (enterCharging s).journal = { s.journal with queue := queue } := by
  by_cases room : s.journal.queue.length < 4
  · rw [enterCharging_room hc room]
    exact ⟨_, rfl⟩
  · rw [enterCharging_full hc (not_lt.1 room)]
    exact ⟨_, rfl⟩

/-- The journal of a cast that opens: a CAST_CLOSE record may join the write queue. -/
theorem castOpened_journal (s : State) : ∃ queue, (castOpened s).journal = { s.journal with queue := queue } := by
  have stays : ∃ queue, s.journal = { s.journal with queue := queue } := ⟨_, rfl⟩
  cases hc : s.castMeter.record with
  | none =>
    unfold castOpened
    simp only [hc]
    exact stays
  | some c =>
    by_cases opening : c.state = .opening
    · have books : (castReviewed c s).journal = s.journal := congrArg Prod.snd (castReviewed_books c s)
      have kept {u : State} (same : u.books = (castReviewed c s).books) :
          ∃ queue, u.journal = { s.journal with queue := queue } :=
        ⟨_, (congrArg Prod.snd same).trans books⟩
      rw [castOpened_eq hc opening]
      split
      · obtain ⟨queue, charged⟩ := enterCharging_journal (castReviewed_record hc)
        exact ⟨queue, by rw [charged, books]⟩
      · split
        · exact kept (enterSettling_books _)
        · split
          · exact kept (drivePump_books ..)
          · exact kept (pausedEntry_books _)
    · unfold castOpened
      simp only [hc, if_neg opening]
      exact stays

/-! ### The closing write completes (R69, R126) -/

theorem books_of_calm (h : t.calm = s.calm) : t.books = s.books := by
  show t.calm.books = s.calm.books
  rw [h]

/-- The end of the whirlpool's step touches its step lock and its hold slots alone (R49, R79). -/
theorem finishStep_whirlpool (s : State) : (finishStep .whirlpool s).calm
    = (withVessel .whirlpool (fun r => { r with stepLock := false }) s).calm := by
  have ended : (endStep .whirlpool s).calm
      = (withVessel .whirlpool (fun r => { r with stepLock := false }) s).calm := by
    unfold endStep
    simp only
    split
    · exact emptySlots_calm ..
    · rfl
  have told : finishStep .whirlpool s = raiseVessel .stepDone .whirlpool
      (doneArg ((endStep .whirlpool s).seqs.get .whirlpool)) (endStep .whirlpool s) := by
    unfold finishStep
    simp only
  rw [told]
  exact (calm_of_still (raiseVessel_still ..)).trans ended

/-- The CAST step of the whirlpool, if it is the current one, ends. -/
def castStepEnded (s : State) : State := if currentKind s .whirlpool = some .cast then finishStep .whirlpool s else s

theorem castStepEnded_kept (s : State) : (castStepEnded s).castMeter = s.castMeter ∧ (castStepEnded s).brews = s.brews
    ∧ (castStepEnded s).books = s.books := by
  have finished := finishStep_whirlpool s
  unfold castStepEnded
  split
  · exact ⟨(castMeter_of_calm finished).trans rfl, (brews_of_calm finished).trans rfl,
      (books_of_calm finished).trans rfl⟩
  · exact ⟨rfl, rfl, rfl⟩

theorem clearOut_kept (v : Vessel) (s : State) : (clearOut v s).castMeter = s.castMeter
    ∧ (clearOut v s).books = s.books :=
  ⟨forceZero_castMeter .., (books_of_calm (calm_of_still (forceZero_still ..))).trans rfl⟩

/-- Occupancy when the cast of a CASTING brew closes (R69). -/
theorem closeOccupancy_casting (found : brew? s n = some b) (casting : b.state = .casting) : closeOccupancy n s
    = changeBrewState n .cast (.vessel .whirlpool) (withBrew n (fun b => { b with occupied := [] })
        (clearOut .whirlpool s)) := by
  unfold closeOccupancy
  rw [found, Option.any_some, casting]
  rfl

theorem closeOccupancy_kept (n : Nat) (s : State) : (closeOccupancy n s).castMeter = s.castMeter
    ∧ (closeOccupancy n s).books = s.books := by
  obtain ⟨cast, books⟩ := clearOut_kept .whirlpool s
  unfold closeOccupancy
  split
  · exact ⟨(castMeter_of_bare (raise_bare ..)).trans cast, (books_of_bare (raise_bare ..)).trans books⟩
  · exact ⟨rfl, rfl⟩

theorem closeOccupancy_brew? (found : brew? s n = some b) (casting : b.state = .casting) :
    brew? (closeOccupancy n s) n = some { b with occupied := [], state := .cast } := by
  have cleared : brew? (clearOut .whirlpool s) n = some b := (clearOut_brew? ..).trans found
  rw [closeOccupancy_casting found casting]
  exact changeBrewState_brew? (brew?_changed (f := fun b => { b with occupied := [] }) (fun _ => rfl) cleared) ..

theorem closeOccupancy_cleared (found : brew? s n = some b) (casting : b.state = .casting) :
    Cleared .whirlpool s (closeOccupancy n s) := by
  rw [closeOccupancy_casting found casting]
  exact (clearOut_cleared .whirlpool s).of_works ((changeBrewState_works ..).trans (withBrew_works ..))

/-- The state with its cast CLOSED, its step ended, and the brew and the whirlpool as R69 has them. -/
def castShut (c : Cast) (s : State) : State :=
  closeOccupancy c.brew (castStepEnded (withCast (fun c => { c with state := .closed }) s))

theorem castClosed_eq (hc : s.castMeter.record = some c) :
    castClosed s = takeCharge c.brew (raiseCast .castClosed (closedArg c) (castShut c s)) := by
  unfold castClosed
  simp only [hc]
  rfl

theorem castShut_kept (hc : s.castMeter.record = some c) :
    (castShut c s).castMeter.record = some { c with state := .closed } ∧ (castShut c s).books = s.books := by
  obtain ⟨cast, _, books⟩ := castStepEnded_kept (withCast (fun c => { c with state := .closed }) s)
  obtain ⟨castAfter, booksAfter⟩ :=
    closeOccupancy_kept c.brew (castStepEnded (withCast (fun c => { c with state := .closed }) s))
  exact ⟨(congrArg CastMeter.record (castAfter.trans cast)).trans (withCast_record hc _), booksAfter.trans books⟩

theorem castShut_casting (found : brew? s c.brew = some b) (casting : b.state = .casting) :
    (castShut c s).vessels.whirlpool.occupancy = .empty ∧ (castShut c s).vessels.whirlpool.occupant = none
      ∧ ((castShut c s).seat .whirlpool).state = .idle
      ∧ brew? (castShut c s) c.brew = some { b with occupied := [], state := .cast } := by
  obtain ⟨_, brews, _⟩ := castStepEnded_kept (withCast (fun c => { c with state := .closed }) s)
  have stands : brew? (castStepEnded (withCast (fun c => { c with state := .closed }) s)) c.brew = some b :=
    (brew?_of_brews (s := s) brews c.brew).trans found
  obtain ⟨_, empty, occupant, idle⟩ := closeOccupancy_cleared stands casting
  exact ⟨empty, occupant, idle, closeOccupancy_brew? stands casting⟩

theorem castClosed_journal (s : State) : (castClosed s).journal = s.journal := by
  cases hc : s.castMeter.record with
  | none =>
    unfold castClosed
    simp only [hc]
  | some c =>
    obtain ⟨_, books⟩ := castShut_kept hc
    rw [castClosed_eq hc, takeCharge_journal]
    exact (congrArg Prod.snd (raiseCast_books ..)).trans (congrArg Prod.snd books)

/-- The charge of a cast that closes enters the account; the rest of the state is that of the cast shut (R126, R151). -/
theorem castClosed_charged {k : Charge} {more : List Charge} (hc : s.castMeter.record = some c)
    (charges : s.duty.charges = k :: more) : (castClosed s).bare = { (castShut c s).bare with
      duty := { s.duty with account := s.duty.account.take k.dl k.cdl k.d, charges := more } } := by
  obtain ⟨_, books⟩ := castShut_kept hc
  have duty : (raiseCast .castClosed (closedArg c) (castShut c s)).duty = s.duty :=
    (congrArg Prod.fst (raiseCast_books ..)).trans (congrArg Prod.fst books)
  rw [castClosed_eq hc, takeCharge_bare c.brew ((congrArg Duty.charges duty).trans charges), duty, raiseCast_bare]

end Sys2Proof.Machine
end

section
/-! The read-back that matches (R160, R161): the record leaves the queue and its block acts. -/

namespace Sys2Proof.Machine

variable {s t : State} {d : Draft} {rest : List Draft} {a : StoreAnswer} {q : Seq}

/-! ### What a completion leaves of the Journal Port -/

/-- The journal of a completed record: the port stands as it was, and the write queue too unless a cast has opened. -/
theorem recordComplete_port (d : Draft) (q : Seq) (s : State) :
    (recordComplete d q s).journal.consecutive = s.journal.consecutive
      ∧ (recordComplete d q s).journal.head = s.journal.head ∧ (recordComplete d q s).journal.op = s.journal.op
      ∧ ((∀ b, d.body ≠ .castOpen b) → (recordComplete d q s).journal.queue = s.journal.queue) := by
  unfold recordComplete
  cases d.body with
  | tariff image =>
    have same : (tariffComplete image q s).journal = _ := congrArg Prod.snd (tariffComplete_books image q s)
    simp only [same, implies_true, and_self]
  | castOpen b =>
    obtain ⟨queue, same⟩ := castOpened_journal s
    exact ⟨by rw [same], by rw [same], by rw [same], fun other => absurd rfl (other b)⟩
  | castClose c => simp only [castClosed_journal, implies_true, and_self]
  | castSettled b => simp only [settledComplete_journal, implies_true, and_self]
  | periodClose b =>
    obtain ⟨_, same⟩ := periodComplete_books b q s
    simp only [same, periodEnded, implies_true, and_self]
  | release b =>
    have same : (releaseComplete b q s).journal = _ := congrArg Prod.snd (releaseComplete_books b q s)
    simp only [same, implies_true, and_self]

theorem startRead_journal (s : State) :
    ∃ op, (startRead s).journal = { s.journal with op := op } ∧ (op = s.journal.op ∨ op = .reading) := by
  unfold startRead
  split
  · exact ⟨_, rfl, .inr rfl⟩
  · exact ⟨_, rfl, .inl rfl⟩

theorem startRead_duty (s : State) : (startRead s).duty = s.duty := by
  unfold startRead
  split <;> rfl

theorem startRead_brews (s : State) : (startRead s).brews = s.brews := by
  unfold startRead
  split <;> rfl

/-! ### The command (R161) -/

/-- The block read back, and the record out of the queue (R160). -/
def recordPopped (a : StoreAnswer) (s : State) : State :=
  popRecord { s with store := (readBlock (blockOf (s.journal.head - 1)) a s.store).2 }

theorem readback_completes (active : s.mode = .active) (verifying : s.journal.op = .verifying)
    (queue : s.journal.queue = d :: rest)
    (matching : (readBlock (blockOf (s.journal.head - 1)) a s.store).1 = blockBytes (s.journal.head - 1) d) :
    exec (.journalReadbackDone a) s
      = .next (settle (startRead (recordComplete d (s.journal.head - 1) (recordPopped a s)))) := by
  refine congrArg Host.Outcome.next ((if_pos active).trans (congrArg settle ?_))
  unfold readbackDone
  simp only [verifying, queue]
  exact if_pos matching

theorem recordPopped_pauseHolds (a : StoreAnswer) (s : State) (c : Cast) (p : PauseCause) :
    pauseHolds (recordPopped a s) c p = pauseHolds s c p := by
  cases p <;> rfl

/-- What the settled state `t` shows of the state `r` in which a completion has been reported to its block. -/
structure Reported (r t : State) : Prop where
  works : t.works = r.works
  duty : t.duty = r.duty
  journal : ∃ op, t.journal = { r.journal with op := op } ∧ (op = r.journal.op ∨ op = .reading)
  cast : ∀ c, r.castMeter.record = some c →
    ∃ e, t.castMeter.record = some e ∧ e.number = c.number ∧ e.state = c.state
  brew : ∀ n b, brew? r n = some b → ∃ e, brew? t n = some e ∧ e.occupied = b.occupied ∧ e.state = b.state

theorem settle_reported (s : State) : Reported s (settle (startRead s)) := by
  obtain ⟨duty, journal⟩ := Prod.ext_iff.1 (settle_books (startRead s))
  obtain ⟨op, started, is⟩ := startRead_journal s
  refine ⟨(settle_works _).trans (startRead_works s), duty.trans (startRead_duty s), ⟨op, journal.trans started, is⟩,
    fun c hc => settle_castState ((congrArg CastMeter.record (startRead_castMeter s)).trans hc), fun n b found => ?_⟩
  have stands : brew? (startRead s) n = some b := (brew?_of_brews (startRead_brews s) n).trans found
  obtain ⟨e, held, same⟩ := brew?_of_plainBrews (settle_plainBrews (startRead s)) stands
  exact ⟨e, held, Brew.read_of_plain same⟩

/-! ### Each kind of record -/

theorem Reported.tariff {image : TariffImage} (h : Reported (tariffComplete image q s) t) :
    t.duty.tariff = .active ∧ t.duty.active = image ∧ t.duty.activeSeq = q ∧ t.duty.account = s.duty.account
      ∧ t.tables = if s.duty.bankTouched then s.tables else { s.tables with tariff := zeroTable 13 5 } := by
  have duty := h.duty.trans (congrArg Prod.fst (tariffComplete_books image q s))
  rw [duty, tables_of_works h.works, tariffComplete_tables]
  exact ⟨rfl, rfl, rfl, rfl, rfl⟩

theorem Reported.period {b : CloseBody} (h : Reported (periodComplete b q s) t) :
    t.duty.account = s.duty.account.closePeriod b.yearEnd
      ∧ t.journal.lastClose = some { seq := q, period := b.period, ytd := b.ytd, yearEnd := b.yearEnd } := by
  obtain ⟨account, closed⟩ := periodComplete_books b q s
  obtain ⟨op, journal, _⟩ := h.journal
  rw [h.duty, account, journal, closed]
  exact ⟨rfl, rfl⟩

theorem Reported.settled {b : SettledBody} {c : Charge} {more : List Charge} {brew : Nat}
    (h : Reported (settledComplete b brew q s) t) (charges : s.duty.charges = c :: more) :
    t.duty.account = s.duty.account.take c.dl c.cdl c.d ∧ t.duty.charges = more
      ∧ t.journal.orphans = s.journal.orphans.filter fun o => o.cast != b.cast := by
  obtain ⟨op, journal, _⟩ := h.journal
  rw [h.duty, settledComplete_duty b brew q charges, journal, settledComplete_journal]
  exact ⟨rfl, rfl, rfl⟩

theorem Reported.released {b : ReleaseBody} (h : Reported (releaseComplete b q s) t) :
    t.journal.tail = b.releasedTo ∧ t.duty = s.duty := by
  obtain ⟨still, moved⟩ := Prod.ext_iff.1 (releaseComplete_books b q s)
  obtain ⟨op, journal, _⟩ := h.journal
  exact ⟨(congrArg Journal.tail journal).trans (congrArg Journal.tail moved), h.duty.trans still⟩

theorem Reported.opened {c : Cast} (h : Reported (castOpened s) t) (hc : s.castMeter.record = some c)
    (opening : c.state = .opening) :
    ∃ e, t.castMeter.record = some e ∧ e.number = c.number
      ∧ (c.flags.interrupted = true → e.state = .charging)
      ∧ (c.flags.interrupted = false → c.endCause ≠ none → e.state = .settling)
      ∧ (c.flags.interrupted = false → c.endCause = none →
          ((∃ p, pauseHolds s c p = true) → e.state = .paused)
          ∧ ((∀ p, pauseHolds s c p = false) → e.state = .metering)) := by
  obtain ⟨d, hd, number, goes⟩ := castOpened_record hc opening
  obtain ⟨e, he, same, state⟩ := h.cast d hd
  rw [← state] at goes
  exact ⟨e, he, same.trans number, goes⟩

theorem Reported.closed {c : Cast} {k : Charge} {more : List Charge} (h : Reported (castClosed s) t)
    (hc : s.castMeter.record = some c) (charges : s.duty.charges = k :: more) :
    (∃ e, t.castMeter.record = some e ∧ e.number = c.number ∧ e.state = .closed)
      ∧ t.duty.account = s.duty.account.take k.dl k.cdl k.d ∧ t.duty.charges = more
      ∧ ∀ w, brew? s c.brew = some w → w.state = .casting →
          t.vessels.whirlpool.occupancy = .empty ∧ t.vessels.whirlpool.occupant = none
            ∧ t.seqs.whirlpool.state = .idle ∧ ∃ x, brew? t c.brew = some x ∧ x.state = .cast ∧ x.occupied = [] := by
  have charged := castClosed_charged hc charges
  have duty := h.duty.trans (congrArg State.duty charged :)
  have record : (castClosed s).castMeter.record = (castShut c s).castMeter.record :=
    (congrArg (fun u : State => u.castMeter.record) charged :)
  have vessels : t.vessels = (castShut c s).vessels :=
    (vessels_of_works h.works).trans (congrArg State.vessels charged :)
  have seat : t.seat = (castShut c s).seat := (seat_of_works h.works).trans (congrArg State.seat charged :)
  have brews : (castClosed s).brews = (castShut c s).brews := (congrArg State.brews charged :)
  obtain ⟨closed, _⟩ := castShut_kept hc
  obtain ⟨e, he, number, state⟩ := h.cast _ (record.trans closed)
  refine ⟨⟨e, he, number, state⟩, congrArg Duty.account duty, congrArg Duty.charges duty, fun w found casting => ?_⟩
  obtain ⟨empty, occupant, idle, left⟩ := castShut_casting found casting
  obtain ⟨x, hx, occupied, stands⟩ := h.brew _ _ ((brew?_of_brews brews c.brew).trans left)
  rw [← congrFun seat] at idle
  rw [vessels]
  exact ⟨empty, occupant, idle, x, hx, stands, occupied⟩

/-- Settles O52: the port and the write queue, then each kind of record. -/
theorem completedRecordsTakeEffect : Obligations.CompletedRecordsTakeEffect := by
  intro d rest a s active quiet j q u verifying queue matching
  obtain ⟨consecutive, head, store, write⟩ := recordComplete_port d q (recordPopped a s)
  have kept := recordComplete_kept d q (recordPopped a s)
  have popped : (recordPopped a s).journal.queue = rest := congrArg List.tail queue
  have run := readback_completes active verifying queue matching
  have h := settle_reported (recordComplete d q (recordPopped a s))
  generalize settle (startRead (recordComplete d q (recordPopped a s))) = t at run h
  obtain ⟨op, journal, is⟩ := h.journal
  refine ⟨t, run, (store_of_kept (kept_of_works h.works)).trans (store_of_kept kept),
    (congrArg Journal.consecutive journal).trans consecutive, (congrArg Journal.head journal).trans head, ?_,
    fun other => (congrArg Journal.queue journal).trans ((write other).trans popped), fun image body => ?_,
    fun b body => ?_, fun b c more body charges => ?_, fun b body => ?_,
    fun b c body hc opening => ?_, fun b c k more body hc charges => ?_⟩
  · rw [journal]
    exact is.imp_left fun x => x.trans store
  all_goals simp only [recordComplete, body] at h
  · exact h.tariff
  · exact h.period
  · exact h.settled charges
  · exact h.released
  · have opened := h.opened hc opening
    simp only [recordPopped_pauseHolds] at opened
    exact opened
  · exact h.closed hc charges

end Sys2Proof.Machine
end

section
/-! The stages of a charge (R140 to R144): the mean gravity, the band, the tiers' portions, and the duty. -/

namespace Sys2Proof.Machine

variable {v gv gm y cdl rate i k lo : Nat} {bands tiers : List (Nat × Nat)} {p : Portion}

/-! ### The mean gravity (R140) -/

theorem meanGravity_none (gv : Nat) : meanGravity 0 gv = 0 := rfl

/-- With a volume the mean gravity is the nearest whole number, half rounded up. -/
theorem meanGravity_rounds (positive : 0 < v) :
    2 * v * meanGravity v gv ≤ 2 * gv + v ∧ 2 * gv + v < 2 * v * (meanGravity v gv + 1) := by
  have divides : meanGravity v gv = (2 * gv + v) / (2 * v) := if_neg positive.ne'
  rw [divides]
  exact ⟨Nat.mul_div_le .., Nat.lt_mul_div_succ _ (by omega)⟩

theorem meanGravity_le {limit : Nat} (within : gv ≤ limit * v) : meanGravity v gv ≤ limit := by
  obtain rfl | positive := v.eq_zero_or_pos
  · exact Nat.zero_le _
  · have below : 2 * v * meanGravity v gv < 2 * v * (limit + 1) := by
      have rounds := (meanGravity_rounds (gv := gv) positive).1
      linarith
    exact Nat.lt_succ_iff.1 (Nat.lt_of_mul_lt_mul_left below)

/-! ### The band (R142) -/

/-- A band whose bound reaches the gravity, behind bands that do not. -/
theorem findBand_reached (n : Nat) (within : i < bands.length) (passed : ∀ j < i, (bands.getD j (0, 0)).1 < gm)
    (reached : gm ≤ (bands.getD i (0, 0)).1) :
    findBand gm n bands = (n + i, (bands.getD i (0, 0)).2, false) := by
  induction bands generalizing n i with
  | nil => exact absurd within (Nat.not_lt_zero i)
  | cons b rest ih =>
    cases i with
    | zero =>
      have here : gm ≤ b.1 := reached
      cases rest with
      | nil => simp [findBand, here]
      | cons c rest => simp [findBand, here]
    | succ i =>
      have below : ¬gm ≤ b.1 := Nat.not_le.2 (passed 0 i.succ_pos)
      cases rest with
      | nil => exact absurd within (by simp)
      | cons c rest =>
        rw [findBand, if_neg below, ih (n + 1) (Nat.lt_of_succ_lt_succ within)
          (fun j before => passed (j + 1) (Nat.succ_lt_succ before)) reached, Nat.add_right_comm, Nat.add_assoc]
        rfl

/-- With the gravity above every bound the last band counts. -/
theorem findBand_above (n : Nat) (listed : bands ≠ []) (above : ∀ b ∈ bands, b.1 < gm) :
    findBand gm (n + 1) bands = (n + bands.length, (bands.getLastD (0, 0)).2, true) := by
  induction bands generalizing n with
  | nil => exact absurd rfl listed
  | cons b rest ih =>
    have here : b.1 < gm := above b List.mem_cons_self
    cases rest with
    | nil => simp [findBand, here]
    | cons c rest =>
      rw [findBand, if_neg (Nat.not_le.2 here),
        ih (n + 1) (List.cons_ne_nil _ _) fun x later => above x (List.mem_cons_of_mem _ later)]
      simp [Nat.add_comm, Nat.add_left_comm]

/-! ### The tiers (R143) -/

/-- The lower bound of a tier, the first tier's being `lo`. -/
def tierFloor (lo : Nat) (tiers : List (Nat × Nat)) (k : Nat) : Nat :=
  if k = 0 then lo else (tiers.getD (k - 1) (0, 0)).1

/-- Where a tier's part of the span from `y` to `y + cdl` ends. -/
def tierTop (y cdl : Nat) (tiers : List (Nat × Nat)) (k : Nat) : Nat :=
  if k + 1 = tiers.length then y + cdl else min (tiers.getD k (0, 0)).1 (y + cdl)

/-- The portion of a quantity in a tier (R143, R144). -/
def portionOf (tier q rate relief : Nat) : Portion :=
  { tier := tier, q := q, gross := q * rate, relief := q * rate * relief / 1000000
    net := q * rate - q * rate * relief / 1000000 }

theorem tierFloor_cons (lo : Nat) (b : Nat × Nat) (tiers : List (Nat × Nat)) (k : Nat) :
    tierFloor lo (b :: tiers) (k + 1) = tierFloor b.1 tiers k := by
  cases k <;> rfl

theorem tierTop_cons (y cdl : Nat) (b : Nat × Nat) (tiers : List (Nat × Nat)) (k : Nat) :
    tierTop y cdl (b :: tiers) (k + 1) = tierTop y cdl tiers k := by
  simp [tierTop]

/-- The portions are that of the first tier, unless it is empty, and those of the others. -/
theorem portionsFrom_cons (y cdl rate i lo : Nat) (b : Nat × Nat) (tiers : List (Nat × Nat)) :
    portionsFrom y cdl rate i lo (b :: tiers) =
      (if tierTop y cdl (b :: tiers) 0 - max lo y = 0 then []
        else [portionOf i (tierTop y cdl (b :: tiers) 0 - max lo y) rate b.2])
      ++ portionsFrom y cdl rate (i + 1) b.1 tiers := by
  have top : tierTop y cdl (b :: tiers) 0 = if tiers.isEmpty then y + cdl else min b.1 (y + cdl) := by
    cases tiers <;> simp [tierTop]
  simp only [portionsFrom, ← top]
  split <;> rfl

/-- The portions are those of the tiers that reach into the span, each with the part that lies in it. -/
theorem mem_portionsFrom : p ∈ portionsFrom y cdl rate i lo tiers ↔
    ∃ k < tiers.length, max (tierFloor lo tiers k) y < tierTop y cdl tiers k
      ∧ p = portionOf (i + k) (tierTop y cdl tiers k - max (tierFloor lo tiers k) y) rate (tiers.getD k (0, 0)).2 := by
  induction tiers generalizing i lo with
  | nil => simp [portionsFrom]
  | cons b tiers ih =>
    have first : (p ∈ if tierTop y cdl (b :: tiers) 0 - max lo y = 0 then []
          else [portionOf i (tierTop y cdl (b :: tiers) 0 - max lo y) rate b.2])
        ↔ max lo y < tierTop y cdl (b :: tiers) 0
          ∧ p = portionOf i (tierTop y cdl (b :: tiers) 0 - max lo y) rate b.2 := by
      split
      · simp; omega
      · rw [List.mem_singleton]
        exact ⟨fun same => ⟨by omega, same⟩, And.right⟩
    rw [portionsFrom_cons, List.mem_append, first, ih]
    constructor
    · rintro (here | ⟨k, within, later⟩)
      · exact ⟨0, Nat.succ_pos _, here⟩
      · refine ⟨k + 1, Nat.succ_lt_succ within, ?_⟩
        rw [tierFloor_cons, tierTop_cons, ← Nat.add_assoc, Nat.add_right_comm]
        exact later
    · rintro ⟨k, within, of⟩
      cases k with
      | zero => exact .inl of
      | succ k =>
        rw [tierFloor_cons, tierTop_cons, ← Nat.add_assoc, Nat.add_right_comm] at of
        exact .inr ⟨k, Nat.lt_of_succ_lt_succ within, of⟩

theorem portionsFrom_tiers_rise (y cdl rate i lo : Nat) (tiers : List (Nat × Nat)) :
    (portionsFrom y cdl rate i lo tiers).Pairwise fun p q => p.tier < q.tier := by
  induction tiers generalizing i lo with
  | nil => exact .nil
  | cons b tiers ih =>
    rw [portionsFrom_cons, List.pairwise_append]
    refine ⟨by split <;> simp, ih .., fun p first q later => ?_⟩
    obtain ⟨k, _, _, rfl⟩ := mem_portionsFrom.1 later
    split at first
    · cases first
    · rw [List.mem_singleton.1 first]
      show i < i + 1 + k
      omega

/-- With the bounds ascending, each tier goes on where the last ended, and the portions make up the span above `lo`. -/
theorem portionsFrom_sum (listed : tiers ≠ []) (ascending : tiers.dropLast.Pairwise fun a b => a.1 ≤ b.1)
    (above : ∀ b ∈ tiers.dropLast, lo ≤ b.1) :
    ((portionsFrom y cdl rate i lo tiers).map Portion.q).sum = y + cdl - max lo y := by
  induction tiers generalizing i lo with
  | nil => exact absurd rfl listed
  | cons b rest ih =>
    have first (top : Nat) : ((if top - max lo y = 0 then []
        else [portionOf i (top - max lo y) rate b.2]).map Portion.q).sum = top - max lo y := by
      split
      · exact Eq.symm ‹_›
      · simp [portionOf]
    rw [portionsFrom_cons, List.map_append, List.sum_append, first]
    cases rest with
    | nil => simp [portionsFrom, tierTop]
    | cons c rest =>
      rw [List.dropLast_cons_cons] at ascending above
      obtain ⟨next, ascending⟩ := List.pairwise_cons.1 ascending
      have top : tierTop y cdl (b :: c :: rest) 0 = min b.1 (y + cdl) := by simp [tierTop]
      have floor : lo ≤ b.1 := above b List.mem_cons_self
      rw [ih (List.cons_ne_nil _ _) ascending next, top]
      omega

/-! ### The charge -/

theorem allowance_bound {dl allowance : Nat} (small : allowance ≤ 100000) :
    9 * dl ≤ 10 * (dl - dl * allowance / 1000000) := by
  have tenth : dl * allowance ≤ dl * 100000 := Nat.mul_le_mul_left dl small
  omega

/-- Settles O48: the mean gravity, then each stage by the lemma that says what it gives. -/
theorem chargesAreComputed : Obligations.ChargesAreComputed := by
  refine ⟨fun v gv => ⟨fun empty => empty ▸ meanGravity_none gv, meanGravity_rounds, meanGravity_le⟩, ?_⟩
  intro t seq source v gm base bands tiers d banded tiered ascending
  have member {p : Portion} : p ∈ d.portions ↔ _ := mem_portionsFrom
  have floor (k : Nat) : max (tierFloor 0 tiers k) base
      = max base (if k = 0 then 0 else (tiers.getD (k - 1) (0, 0)).1) := Nat.max_comm ..
  refine ⟨rfl, rfl, rfl, allowance_bound, fun i within passed reached => ?_, fun above => ?_, rfl,
    fun k within => ⟨fun reaches => ?_, fun empty p held tier => ?_⟩, portionsFrom_tiers_rise .., ?_,
    fun p held => ?_, rfl, rfl⟩
  · have band : findBand gm 1 bands = _ := findBand_reached 1 within passed reached
    exact ⟨(congrArg Prod.fst band).trans (Nat.add_comm ..), congrArg (·.2.1) band, congrArg (·.2.2) band⟩
  · have band : findBand gm 1 bands = _ := findBand_above 0 banded above
    exact ⟨(congrArg Prod.fst band).trans (Nat.zero_add _), congrArg (·.2.1) band, congrArg (·.2.2) band⟩
  · refine ⟨_, member.2 ⟨k, within, ?_, rfl⟩, Nat.add_comm .., ?_⟩
    · rw [floor]
      exact reaches
    · show _ - max (tierFloor 0 tiers k) base = _
      rw [floor]
      rfl
  · obtain ⟨j, _, reaches, rfl⟩ := member.1 held
    obtain rfl : j = k := by
      have same : 1 + j = k + 1 := tier
      omega
    rw [floor] at reaches
    exact absurd reaches (Nat.not_lt.2 empty)
  · have sum : (d.portions.map Portion.q).sum = base + d.cdl - max 0 base :=
      portionsFrom_sum tiered ascending fun _ _ => Nat.zero_le _
    omega
  · obtain ⟨k, within, reaches, rfl⟩ := member.1 held
    refine ⟨Nat.sub_pos_of_lt reaches, Nat.le_add_right .., (Nat.add_comm 1 k).trans_le within, rfl, ?_, rfl⟩
    show _ = _ * (tiers.getD (1 + k - 1) (0, 0)).2 / 1000000
    rw [Nat.add_sub_cancel_left]
    rfl

end Sys2Proof.Machine
end

section
/-! The requests CAST_SETTLE and PERIOD_CLOSE (R153, R155): their checks in order, and the records they offer. -/

namespace Sys2Proof.Machine

variable {s : State} {cast v gm : Nat} {o : Orphan} {rq : Request} {yearEnd : Bool}

/-! ### CAST_SETTLE (R155) -/

theorem settleResult_eq (cast : Nat) (s : State) : settleResult cast s =
    if s.journal.mount ≠ .ready then .notReady
    else if (∀ o ∈ s.journal.orphans, o.cast ≠ cast) then .notFound
    else if (∃ c ∈ s.duty.charges, c.cast = cast) then .busy
    else if s.duty.tariff ≠ .active then .notReady
    else if freeRoom s.journal < 1 then .journalFull
    else if 4 ≤ s.journal.queue.length then .busy
    else .ok := by
  simp only [settleResult, queueHasPlace, Bool.not_eq_true', List.any_eq_false, List.any_eq_true, beq_iff_eq,
    decide_eq_false_iff_not, not_lt]

theorem room_of_settleResult (ok : settleResult cast s = .ok) : s.journal.queue.length < 4 := by
  rw [settleResult_eq] at ok
  split_ifs at ok with _ _ _ _ _ full
  exact Nat.not_le.1 full

theorem doCastSettle_refused (refused : settleResult cast s ≠ .ok) :
    doCastSettle cast v gm rq s = answer 24 rq (settleResult cast s) [] s := by
  unfold doCastSettle
  split
  · exact absurd ‹_› refused
  · rfl

theorem doCastSettle_accepted (ok : settleResult cast s = .ok)
    (found : (s.journal.orphans.find? fun o => o.cast == cast) = some o) :
    doCastSettle cast v gm rq s = settleOrphan o v gm rq s := by
  simp only [doCastSettle, ok, found]

/-- The CAST_SETTLED record of an orphan with a charge (R155). -/
def settledDraft (o : Orphan) (part : DutyPart) (s : State) : Draft :=
  newDraft (.castSettled { cast := o.cast, fermenter := o.fermenter, openSeq := o.tariffSeq, duty := part }) o.brew s

theorem settleOrphan_room (room : s.journal.queue.length < 4) : settleOrphan o v gm rq s =
    let part := computeDuty s.duty.active s.duty.activeSeq .declared v gm (baseY s.duty)
    deferReply rq 24 (addCharge o.cast part (recordQueued (settledDraft o part s) s)) := by
  simp only [settleOrphan, offerRecord_room _ room]
  rfl

theorem serveCastSettle_asked (a : Asks rq (.castSettle cast v gm) s) :
    serveCastSettle rq (taken s) = doCastSettle cast v gm rq (taken s) := by
  have carries : parseReq (taken s).stationAddress 24 rq.params = some (.castSettle cast v gm) := a.carries
  simp only [serveCastSettle, carries]

/-- Settles O49: a check that fails answers, and with none the orphan found is settled. -/
theorem castSettleRequests : Obligations.CastSettleRequests := by
  intro cast v gm rq s a i j result
  have resultIs : settleResult cast (taken s) = result := settleResult_eq ..
  refine ⟨fun refused => ?_, fun o accepted found => ?_⟩
  · rw [← resultIs] at refused ⊢
    exact answers_of (serveCastSettle rq) rfl a.toTakes
      ((serveCastSettle_asked a).trans (doCastSettle_refused refused)) a.tells a.arbiter
  · have ok := resultIs.trans accepted
    have named := List.find?_some (p := fun o : Orphan => o.cast == cast) found
    obtain rfl := beq_iff_eq.1 named
    exact leaves_of (serveCastSettle rq) rfl a.toTakes
      ((serveCastSettle_asked a).trans ((doCastSettle_accepted (s := taken s) ok found).trans
        (settleOrphan_room (s := taken s) (room_of_settleResult ok)))) a.tells

/-! ### PERIOD_CLOSE (R153) -/

theorem closeResult_eq (s : State) : closeResult s =
    if s.journal.mount ≠ .ready then .notReady
    else if (∃ c ∈ s.castMeter.record, c.state ≠ .closed) then .busy
    else if s.journal.queue ≠ [] ∨ s.duty.tariff = .activating ∨ s.duty.tariff = .changing ∨ s.duty.charges ≠ []
      then .busy
    else if s.journal.orphans ≠ [] then .orphans
    else if freeRoom s.journal < 2 then .journalFull
    else .ok := by
  simp only [closeResult, castOpen_iff, Bool.or_eq_true, Bool.not_eq_true', List.isEmpty_eq_false_iff, beq_iff_eq,
    or_assoc, Option.mem_def]

theorem queue_of_closeResult (ok : closeResult s = .ok) : s.journal.queue = [] := by
  rw [closeResult_eq] at ok
  split_ifs at ok with _ _ busy
  exact not_not.1 (not_or.1 busy).1

theorem doPeriodClose_refused (refused : closeResult s ≠ .ok) :
    doPeriodClose yearEnd rq s = answer 25 rq (closeResult s) [] s := by
  unfold doPeriodClose
  split
  · exact absurd ‹_› refused
  · rfl

theorem doPeriodClose_accepted (ok : closeResult s = .ok) : doPeriodClose yearEnd rq s = acceptClose yearEnd rq s := by
  simp only [doPeriodClose, ok]

/-- The state with the PERIOD_CLOSE record of the account taken into the write queue (R153). -/
def closeQueued (yearEnd : Bool) (s : State) : State :=
  recordQueued (newDraft (.periodClose (closeFigures s yearEnd)) 0 s) s

theorem closeQueued_empty (yearEnd : Bool) (empty : s.journal.queue = []) : closeQueued yearEnd s = { s with
    journal := { s.journal with
      queue := [newDraft (.periodClose (closeFigures s yearEnd)) 0 s], reservations := s.journal.reservations + 1 } } := by
  unfold closeQueued recordQueued
  rw [empty]
  rfl

/-- The state with the TARIFF record of the pending bank taken into the write queue (R149, R153). -/
def tariffQueued (s : State) : State :=
  withDuty (fun u => { u with tariff := .changing, bankTouched := false })
    (recordQueued (newDraft (.tariff (bankImage s.tables)) 0 s) s)

/-- The close under way with its figures, and its reply deferred (R153). -/
def closeDeferred (figures : CloseBody) (withTariff : Bool) (rq : Request) (s : State) : State :=
  deferReply rq 25 (withDuty (fun u => { u with closing := some { figures := figures, withTariff := withTariff } }) s)

/-- An accepted close offers its record, and behind it that of a valid bank under an active tariff (R153). -/
theorem acceptClose_empty (yearEnd : Bool) (rq : Request) (empty : s.journal.queue = []) : acceptClose yearEnd rq s =
    let change := bankValid s.tables && s.duty.tariff == .active
    closeDeferred (closeFigures s yearEnd) change rq
      (if change then tariffQueued (closeQueued yearEnd s) else closeQueued yearEnd s) := by
  have room : s.journal.queue.length < 4 := by simp [empty]
  have more : (closeQueued yearEnd s).journal.queue.length < 4 := by simp [closeQueued, recordQueued, empty]
  have offer : offerTariff (closeQueued yearEnd s) = _ := congrArg (Option.map _) (offerRecord_room _ more)
  unfold closeQueued at offer
  simp only [acceptClose, offerRecord_room _ room, offer]
  rfl

theorem servePeriodClose_asked (a : Asks rq (.periodClose yearEnd) s) :
    servePeriodClose rq (taken s) = doPeriodClose yearEnd rq (taken s) := by
  have carries : parseReq (taken s).stationAddress 25 rq.params = some (.periodClose yearEnd) := a.carries
  simp only [servePeriodClose, carries]

/-- Settles O50: a check that fails answers, and an accepted close goes without a TARIFF record or with one. -/
theorem periodCloseRequests : Obligations.PeriodCloseRequests := by
  intro yearEnd rq s a i j account result figures record deferred
  have resultIs : closeResult (taken s) = result := closeResult_eq ..
  have queue (accepted : result = .ok) : (taken s).journal.queue = [] := queue_of_closeResult (resultIs.trans accepted)
  have run (accepted : result = .ok) : servePeriodClose rq (taken s) = acceptClose yearEnd rq (taken s) :=
    (servePeriodClose_asked a).trans (doPeriodClose_accepted (resultIs.trans accepted))
  refine ⟨fun refused => ?_, fun accepted invalid => ?_, fun accepted valid active => ?_⟩
  · rw [← resultIs] at refused ⊢
    exact answers_of (servePeriodClose rq) rfl a.toTakes
      ((servePeriodClose_asked a).trans (doPeriodClose_refused refused)) a.tells a.arbiter
  · have offers := acceptClose_empty yearEnd rq (queue accepted)
    have change : (bankValid (taken s).tables && (taken s).duty.tariff == .active) = false := by
      rw [show bankValid (taken s).tables = false from invalid, Bool.false_and]
    simp only [change, closeQueued_empty yearEnd (queue accepted)] at offers
    exact leaves_of (servePeriodClose rq) rfl a.toTakes ((run accepted).trans offers) a.tells
  · have offers := acceptClose_empty yearEnd rq (queue accepted)
    have change : (bankValid (taken s).tables && (taken s).duty.tariff == .active) = true := by
      rw [Bool.and_eq_true, beq_iff_eq]
      exact ⟨valid, active⟩
    simp only [change, closeQueued_empty yearEnd (queue accepted)] at offers
    exact leaves_of (servePeriodClose rq) rfl a.toTakes ((run accepted).trans offers) a.tells

end Sys2Proof.Machine
end

section
/-! The positions of the mount (R158, R167): the latest of some records, head and tail, and the records at unreleased
positions in sequence order. -/

namespace Sys2Proof.Machine

variable {good l : List Record} {r q : Record} {b : ReleaseBody} {tail : Seq}

/-! ### The order of sequence numbers (R158) -/

theorem laterSeq_asymm {x y : Seq} (later : laterSeq x y = true) : laterSeq y x = false := by
  simp only [laterSeq, decide_eq_true_eq, decide_eq_false_iff_not, BitVec.toNat_sub] at later ⊢
  have := x.isLt
  have := y.isLt
  omega

theorem latestRecord_mem (latest : latestRecord l = some r) : r ∈ l := by
  induction l generalizing r with
  | nil => cases latest
  | cons x rest ih =>
    unfold latestRecord at latest
    split at latest
    next q found =>
      split at latest
      · cases latest
        exact List.mem_cons_self
      · cases latest
        exact List.mem_cons_of_mem _ (ih found)
    next =>
      cases latest
      exact List.mem_cons_self

/-- A record later than every other is the latest. -/
theorem latestRecord_eq (member : r ∈ l) (latest : ∀ q ∈ l, q ≠ r → laterSeq r.seq q.seq = true) :
    latestRecord l = some r := by
  induction l with
  | nil => cases member
  | cons x rest ih =>
    unfold latestRecord
    by_cases within : r ∈ rest
    · rw [ih within fun q later => latest q (List.mem_cons_of_mem _ later)]
      by_cases same : x = r
      · rw [same]
        exact ite_self _
      · have earlier := laterSeq_asymm (latest x List.mem_cons_self same)
        simp [earlier]
    · obtain rfl : r = x := (List.mem_cons.1 member).resolve_right within
      cases found : latestRecord rest with
      | none => rfl
      | some q =>
        have behind := latestRecord_mem found
        exact if_pos (latest q (List.mem_cons_of_mem _ behind) fun same => within (same ▸ behind))

/-! ### Head, tail and the latest RELEASE (R167) -/

theorem release?_eq_some_iff : r.release? = some b ↔ r.body = .release b := by
  unfold Record.release?
  cases r.body <;> simp

theorem mountPositions_head (member : r ∈ good) (latest : ∀ q ∈ good, q ≠ r → laterSeq r.seq q.seq = true) :
    (mountPositions good).head = r.seq + 1 := by
  simp only [mountPositions, latestRecord_eq member latest]

theorem mountPositions_release_none (unreleased : ∀ r ∈ good, r.release? = none) :
    (mountPositions good).release = none := by
  have filtered : (good.filter fun r => r.release?.isSome) = [] :=
    List.filter_eq_nil_iff.2 fun r member => by simp [unreleased r member]
  simp [mountPositions, filtered, latestRecord]

theorem mountPositions_release (latest : LatestRelease good r b) : (mountPositions good).release = some (r.seq, b) := by
  have body := release?_eq_some_iff.2 latest.body
  have found : latestRecord (good.filter fun r => r.release?.isSome) = some r := by
    refine latestRecord_eq (List.mem_filter.2 ⟨latest.mem, by simp [body]⟩) fun q member other => ?_
    obtain ⟨member, released⟩ := List.mem_filter.1 member
    exact latest.latest q member other (Option.isSome_iff_ne_none.1 released)
  simp [mountPositions, found, body]

/-- A RELEASE body that the mount fixes is that of a good record. -/
theorem release_of_mountPositions {x : Seq × ReleaseBody} (release : (mountPositions good).release = some x) :
    ∃ r ∈ good, r.body = .release x.2 := by
  obtain ⟨r, found, held⟩ := Option.bind_eq_some_iff.1 release
  obtain ⟨b, body, rfl⟩ := Option.map_eq_some_iff.1 held
  exact ⟨r, (List.mem_filter.1 (latestRecord_mem found)).1, release?_eq_some_iff.1 body⟩

theorem mountPositions_tail (good : List Record) :
    (mountPositions good).tail = ((mountPositions good).release.map fun x => x.2.releasedTo).getD 0 := by
  have tail : (mountPositions good).tail = match (mountPositions good).release with
      | some (_, b) => b.releasedTo
      | none => 0 := rfl
  rw [tail]
  cases (mountPositions good).release <;> rfl

/-! ### The records in sequence order (R167) -/

theorem mem_insertRecord : q ∈ insertRecord tail r l ↔ q = r ∨ q ∈ l := by
  induction l with
  | nil => simp [insertRecord]
  | cons x rest ih =>
    unfold insertRecord
    split
    · rw [List.mem_cons]
    · rw [List.mem_cons, ih, List.mem_cons, or_left_comm]

theorem insertRecord_sorted (sorted : l.Pairwise fun a b => placeOf tail a ≤ placeOf tail b) :
    (insertRecord tail r l).Pairwise fun a b => placeOf tail a ≤ placeOf tail b := by
  induction l with
  | nil => exact List.pairwise_singleton ..
  | cons x rest ih =>
    obtain ⟨first, later⟩ := List.pairwise_cons.1 sorted
    unfold insertRecord
    split
    next before =>
      refine List.pairwise_cons.2 ⟨fun y member => ?_, sorted⟩
      obtain rfl | member := List.mem_cons.1 member
      · exact before.le
      · exact before.le.trans (first y member)
    next behind =>
      refine List.pairwise_cons.2 ⟨fun y member => ?_, ih later⟩
      obtain rfl | member := mem_insertRecord.1 member
      · exact Nat.not_lt.1 behind
      · exact first y member

theorem mem_sortRecords : q ∈ sortRecords tail l ↔ q ∈ l := by
  induction l with
  | nil => rfl
  | cons x rest ih => rw [sortRecords, mem_insertRecord, ih, List.mem_cons]

theorem sortRecords_sorted (tail : Seq) (l : List Record) :
    (sortRecords tail l).Pairwise fun a b => placeOf tail a ≤ placeOf tail b := by
  induction l with
  | nil => exact .nil
  | cons x rest ih => exact insertRecord_sorted ih

theorem mem_mountPositions : r ∈ (mountPositions good).records ↔
    r ∈ good ∧ placeOf (mountPositions good).tail r
      < ((mountPositions good).head - (mountPositions good).tail).toNat :=
  mem_sortRecords.trans (List.mem_filter.trans (and_congr_right' decide_eq_true_iff))

theorem mountPositions_sorted (good : List Record) : (mountPositions good).records.Pairwise fun a b =>
    placeOf (mountPositions good).tail a ≤ placeOf (mountPositions good).tail b := sortRecords_sorted ..

/-- In sequence order, what the last record of a kind gives is the last of what the records of the kind give. -/
theorem getLast?_filterMap_of_lastOf {α : Type} {f : Record → Option α} {p : Record → Prop} {x : α}
    (sorted : l.Pairwise fun a b => placeOf tail a ≤ placeOf tail b) (kind : ∀ q, f q ≠ none → p q)
    (last : LastOf tail p l r) (gives : f r = some x) : (l.filterMap f).getLast? = some x := by
  induction l with
  | nil => exact absurd last.mem List.not_mem_nil
  | cons y rest ih =>
    obtain ⟨first, later⟩ := List.pairwise_cons.1 sorted
    by_cases within : r ∈ rest
    · have found := ih later ⟨within, last.holds, fun q member => last.last q (List.mem_cons_of_mem _ member)⟩
      cases held : f y with
      | none => rw [List.filterMap_cons_none held, found]
      | some z => rw [List.filterMap_cons_some held, List.getLast?_cons, found, Option.getD_some]
    · obtain rfl : r = y := (List.mem_cons.1 last.mem).resolve_right within
      have others : rest.filterMap f = [] := by
        refine List.filterMap_eq_nil_iff.2 fun q member => by_contra fun held => ?_
        have before := last.last q (List.mem_cons_of_mem _ member) (kind q held) fun same => within (same ▸ member)
        exact absurd (first q member) (Nat.not_le.2 before)
      rw [List.filterMap_cons_some gives, others]
      rfl

end Sys2Proof.Machine
end

section
/-! The figures of the mount (R150, R167, R168): the last close, the cast count, the account's base and its charges, and
the tariff. -/

namespace Sys2Proof.Machine

variable {good : List Record} {r q : Record} {m : Mounted} {c : LastClose} {k : CloseBody} {b : ReleaseBody}

/-! ### The last close (R167) -/

/-- A record is a PERIOD_CLOSE. -/
def Record.closes (r : Record) : Prop := ∃ k, r.body = .periodClose k

/-- What the part keeps of a PERIOD_CLOSE record (R159). -/
def Record.kept (r : Record) (k : CloseBody) : LastClose :=
  { seq := r.seq, period := k.period, ytd := k.ytd, yearEnd := k.yearEnd }

theorem periodClose?_eq_some_iff : r.periodClose? = some k ↔ r.body = .periodClose k := by
  unfold Record.periodClose?
  cases r.body <;> simp

theorem lastPeriod_mem (period : m.lastPeriod = some c) :
    ∃ r ∈ m.records, ∃ k, r.body = .periodClose k ∧ c = r.kept k := by
  obtain ⟨r, member, gives⟩ := List.mem_filterMap.1 (List.mem_of_getLast? period)
  obtain ⟨k, body, rfl⟩ := Option.map_eq_some_iff.1 gives
  exact ⟨r, member, k, periodClose?_eq_some_iff.1 body, rfl⟩

theorem lastPeriod_none (stays : ∀ r ∈ m.records, ¬r.closes) : m.lastPeriod = none := by
  refine Option.eq_none_iff_forall_ne_some.2 fun c period => ?_
  obtain ⟨r, member, k, body, _⟩ := lastPeriod_mem period
  exact stays r member ⟨k, body⟩

theorem lastPeriod_eq (last : LastOf (mountPositions good).tail Record.closes (mountPositions good).records r)
    (body : r.body = .periodClose k) : (mountPositions good).lastPeriod = some (r.kept k) := by
  refine getLast?_filterMap_of_lastOf (mountPositions_sorted good) (fun q gives => ?_) last ?_
  · obtain ⟨k, held⟩ := Option.ne_none_iff_exists'.1 (mt (Option.map_eq_none_iff (f := q.kept)).2 gives)
    exact ⟨k, periodClose?_eq_some_iff.1 held⟩
  · rw [periodClose?_eq_some_iff.2 body]
    rfl

theorem lastClose_eq (m : Mounted) : m.lastClose = m.lastPeriod.or (m.release.map fun x => x.2.close) := by
  unfold Mounted.lastClose
  cases m.lastPeriod <;> rfl

theorem lastClose_of_release (latest : LatestRelease good r b)
    (stays : ∀ q ∈ (mountPositions good).records, ¬q.closes) : (mountPositions good).lastClose = some b.close := by
  rw [lastClose_eq, lastPeriod_none stays, mountPositions_release latest]
  rfl

theorem lastClose_none (unreleased : ∀ r ∈ good, r.release? = none)
    (stays : ∀ q ∈ (mountPositions good).records, ¬q.closes) : (mountPositions good).lastClose = none := by
  rw [lastClose_eq, lastPeriod_none stays, mountPositions_release_none unreleased]
  rfl

/-! ### The cast count (R167) -/

/-- The cast count that the latest RELEASE carries. -/
def Mounted.carried (m : Mounted) : Nat := (m.release.map fun x => x.2.castCount).getD 0

/-- The cast count is the greatest of the carried one and the records' cast numbers. -/
theorem castCount_greatest (m : Mounted) : m.castCount ∈ m.carried :: m.records.map Record.castNumber
    ∧ ∀ n ∈ m.carried :: m.records.map Record.castNumber, n ≤ m.castCount := by
  have count : m.castCount = (m.records.map Record.castNumber).foldl max m.carried := by
    unfold Mounted.castCount Mounted.carried
    cases m.release <;> rfl
  rw [count]
  exact List.max?_eq_some_iff.1 List.max?_cons'

/-- A record of a kind with a cast number carries the number (R167). -/
def Record.numbered (r : Record) (n : Nat) : Prop :=
  (∃ b, r.body = .castOpen b ∧ b.cast = n) ∨ (∃ c, r.body = .castClose c ∧ c.number = n)
    ∨ (∃ b, r.body = .castSettled b ∧ b.cast = n) ∨ (∃ b, r.body = .periodClose b ∧ b.castCount = n)

theorem castNumber_of_numbered {n : Nat} (numbered : r.numbered n) : r.castNumber = n := by
  unfold Record.castNumber
  obtain ⟨_, body, number⟩ | ⟨_, body, number⟩ | ⟨_, body, number⟩ | ⟨_, body, number⟩ := numbered <;>
    rw [body] <;> exact number

theorem numbered_castNumber (nonzero : r.castNumber ≠ 0) : r.numbered r.castNumber := by
  unfold Record.numbered
  unfold Record.castNumber at nonzero ⊢
  cases body : r.body <;> simp [body] at nonzero ⊢

theorem numbered_le_castCount {n : Nat} (member : r ∈ m.records) (numbered : r.numbered n) : n ≤ m.castCount :=
  castNumber_of_numbered numbered ▸ (castCount_greatest m).2 _ (List.mem_cons_of_mem _ (List.mem_map_of_mem member))

theorem carried_le_castCount {x : Seq × ReleaseBody} (release : m.release = some x) : x.2.castCount ≤ m.castCount := by
  have carried := (castCount_greatest m).2 _ List.mem_cons_self
  rwa [Mounted.carried, release] at carried

theorem castCount_mem (nonzero : m.castCount ≠ 0) : (∃ r ∈ m.records, r.numbered m.castCount)
    ∨ ∃ x, m.release = some x ∧ x.2.castCount = m.castCount := by
  obtain carried | number := List.mem_cons.1 (castCount_greatest m).1
  · cases release : m.release with
    | none =>
      rw [Mounted.carried, release] at carried
      exact absurd carried nonzero
    | some x =>
      rw [Mounted.carried, release] at carried
      exact .inr ⟨x, rfl, carried.symm⟩
  · obtain ⟨r, member, same⟩ := List.mem_map.1 number
    have held := numbered_castNumber (same ▸ nonzero)
    rw [same] at held
    exact .inl ⟨r, member, held⟩

/-! ### The account (R150, R168) -/

/-- The three bases of the account: the last PERIOD_CLOSE, unless the latest RELEASE is later than it; the latest RELEASE
when it is later than every PERIOD_CLOSE; and none (R168). -/
def BaseOf (good : List Record) (m : Mounted) (base : Option LastClose) : Prop :=
  (∃ r k, LastOf m.tail Record.closes m.records r ∧ r.body = .periodClose k
      ∧ ((∀ q ∈ good, q.release? = none) ∨ ∃ q b, LatestRelease good q b ∧ laterSeq q.seq r.seq = false)
      ∧ base = some (r.kept k))
  ∨ (∃ r b, LatestRelease good r b ∧ (∀ q ∈ m.records, q.closes → laterSeq r.seq q.seq = true)
      ∧ base = some b.close)
  ∨ ((∀ r ∈ good, r.release? = none) ∧ (∀ r ∈ m.records, ¬r.closes) ∧ base = none)

theorem base_eq {base : Option LastClose} (of : BaseOf good (mountPositions good) base) :
    (mountPositions good).base = base := by
  unfold Mounted.base
  obtain ⟨r, k, last, body, released, rfl⟩ | ⟨r, b, latest, later, rfl⟩ | ⟨unreleased, stays, rfl⟩ := of
  · rw [lastPeriod_eq last body]
    obtain unreleased | ⟨q, b, latest, earlier⟩ := released
    · rw [mountPositions_release_none unreleased]
    · rw [mountPositions_release latest]
      have before : laterSeq q.seq (r.kept k).seq = false := earlier
      simp [before]
  · rw [mountPositions_release latest]
    cases period : (mountPositions good).lastPeriod with
    | none => rfl
    | some c =>
      obtain ⟨q, member, k, body, rfl⟩ := lastPeriod_mem period
      exact if_pos (later q member ⟨k, body⟩)
  · rw [mountPositions_release_none unreleased, lastPeriod_none stays]

/-- The charges taken into an account one after the other, with room for their sums (R144, R151). -/
theorem take_all {charges : List DutyPart} {a : Account} (casts : a.casts + charges.length < 2 ^ 32)
    (dl : a.dl + (charges.map DutyPart.dl).sum < 2 ^ 64) (cdl : a.cdl + (charges.map DutyPart.cdl).sum < 2 ^ 64)
    (duty : a.duty + (charges.map DutyPart.d).sum < 2 ^ 64) (ytd : a.ytd + (charges.map DutyPart.cdl).sum < 2 ^ 64) :
    charges.foldl (fun a d => a.take d.dl d.cdl d.d) a =
      { a with
        casts := a.casts + charges.length, dl := a.dl + (charges.map DutyPart.dl).sum
        cdl := a.cdl + (charges.map DutyPart.cdl).sum, duty := a.duty + (charges.map DutyPart.d).sum
        ytd := a.ytd + (charges.map DutyPart.cdl).sum } := by
  induction charges generalizing a with
  | nil => rfl
  | cons d rest ih =>
    simp only [List.map_cons, List.sum_cons, List.length_cons, ← Nat.add_assoc] at casts dl cdl duty ytd ⊢
    have first : a.take d.dl d.cdl d.d =
        { a with
          casts := a.casts + 1, dl := a.dl + d.dl, cdl := a.cdl + d.cdl, duty := a.duty + d.d, ytd := a.ytd + d.cdl } := by
      unfold Account.take
      rw [fit_of_lt (by omega), fit_of_lt (by omega), fit_of_lt (by omega), fit_of_lt (by omega), fit_of_lt (by omega)]
    rw [List.foldl_cons, first, ih (by simp only; omega) dl cdl duty ytd]
    simp only [Nat.add_right_comm]

/-- The account is that of its base with the charges taken, with room for their sums (R168). -/
theorem account_eq (casts : m.charges.length < 2 ^ 32) (dl : (m.charges.map DutyPart.dl).sum < 2 ^ 64)
    (duty : (m.charges.map DutyPart.d).sum < 2 ^ 64)
    (ytd : (accountFrom m.base).ytd + (m.charges.map DutyPart.cdl).sum < 2 ^ 64) :
    m.account =
      { period := (accountFrom m.base).period, casts := m.charges.length, dl := (m.charges.map DutyPart.dl).sum
        cdl := (m.charges.map DutyPart.cdl).sum, duty := (m.charges.map DutyPart.d).sum
        ytd := (accountFrom m.base).ytd + (m.charges.map DutyPart.cdl).sum } := by
  have start : (accountFrom m.base).casts = 0 ∧ (accountFrom m.base).dl = 0 ∧ (accountFrom m.base).cdl = 0
      ∧ (accountFrom m.base).duty = 0 := ⟨rfl, rfl, rfl, rfl⟩
  obtain ⟨startCasts, startDl, startCdl, startDuty⟩ := start
  rw [Mounted.account, take_all (by omega) (by omega) (by omega) (by omega) ytd, startCasts, startDl, startCdl,
    startDuty]
  simp only [Nat.zero_add]

/-! ### The tariff (R168) -/

theorem tariff?_eq_some_iff {image : TariffImage} : r.tariff? = some image ↔ r.body = .tariff image := by
  unfold Record.tariff?
  cases r.body <;> simp

theorem tariff_of_lastOf {image : TariffImage}
    (last : LastOf (mountPositions good).tail (fun q => ∃ i, q.body = .tariff i) (mountPositions good).records r)
    (body : r.body = .tariff image) : (mountPositions good).tariff = some (image, r.seq) := by
  have found := getLast?_filterMap_of_lastOf (f := fun r => r.tariff?.map fun i => (i, r.seq))
    (mountPositions_sorted good) (fun q gives => ?_) last (by rw [tariff?_eq_some_iff.2 body]; rfl)
  · unfold Mounted.tariff
    rw [found]
  · obtain ⟨i, held⟩ := Option.ne_none_iff_exists'.1 (mt (Option.map_eq_none_iff (f := fun i => (i, q.seq))).2 gives)
    exact ⟨i, tariff?_eq_some_iff.1 held⟩

/-- With no TARIFF record read, the tariff is what the latest RELEASE carries. -/
theorem tariff_of_none (untaxed : ∀ r ∈ m.records, r.tariff? = none) :
    m.tariff = m.release.bind fun x => x.2.tariffSeq.map fun q => (x.2.tariff, q) := by
  have filtered : (m.records.filterMap fun r => r.tariff?.map fun i => (i, r.seq)) = [] :=
    List.filterMap_eq_nil_iff.2 fun r member => by rw [untaxed r member]; rfl
  unfold Mounted.tariff
  rw [filtered]
  rfl

theorem tariff_of_release {seq : Seq} (latest : LatestRelease good r b) (carried : b.tariffSeq = some seq)
    (untaxed : ∀ q ∈ (mountPositions good).records, q.tariff? = none) :
    (mountPositions good).tariff = some (b.tariff, seq) := by
  rw [tariff_of_none untaxed, mountPositions_release latest]
  exact congrArg (Option.map _) carried

theorem tariff_none (unreleased : ∀ r ∈ good, r.release? = none)
    (untaxed : ∀ q ∈ (mountPositions good).records, q.tariff? = none) : (mountPositions good).tariff = none := by
  rw [tariff_of_none untaxed, mountPositions_release_none unreleased]
  rfl

end Sys2Proof.Machine
end

section
/-! The orphans of the mount, and the bad blocks that are damage (R167, R168). -/

namespace Sys2Proof.Machine

variable {good l : List Record} {r q : Record} {m : Mounted} {block : Nat} {p : Seq}

/-! ### The orphans (R168) -/

theorem firstOfCast_distinct {l : List Orphan} (distinct : l.Pairwise fun a b => a.cast ≠ b.cast) : firstOfCast l = l := by
  induction l with
  | nil => rfl
  | cons o rest ih =>
    obtain ⟨first, later⟩ := List.pairwise_cons.1 distinct
    rw [firstOfCast, ih later]
    exact congrArg (o :: ·) (List.filter_eq_self.2 fun x member => bne_iff_ne.2 (first x member).symm)

/-- The orphan a record makes, unless some record ends its cast (R168). -/
def Mounted.opened? (m : Mounted) (r : Record) : Option Orphan :=
  r.orphan?.filter fun o => !m.records.any fun q => q.ends o.cast

theorem opened?_castOpen {b : OpenBody} (m : Mounted) (body : r.body = .castOpen b) : m.opened? r =
    if m.records.any fun q => q.ends b.cast then none
    else some { cast := b.cast, brew := r.brew, fermenter := b.fermenter, tariffSeq := b.tariffSeq } := by
  simp only [Mounted.opened?, Record.orphan?, body, Option.filter_some]
  cases m.records.any fun q => q.ends b.cast <;> rfl

theorem opened?_other (m : Mounted) (other : ∀ b, r.body ≠ .castOpen b) : m.opened? r = none := by
  have nothing : r.orphan? = none := by
    unfold Record.orphan?
    split
    · exact absurd ‹_› (other _)
    all_goals rfl
  rw [Mounted.opened?, nothing]
  rfl

theorem orphan?_eq_some {o : Orphan} (made : r.orphan? = some o) : ∃ b, r.body = .castOpen b ∧ b.cast = o.cast := by
  unfold Record.orphan? at made
  split at made
  next b body =>
    cases made
    exact ⟨b, body, rfl⟩
  all_goals cases made

/-- With one CAST_OPEN record for each cast number, the orphans are those the records make. -/
theorem orphans_of_distinct (distinct : m.records.Pairwise fun a b =>
      ∀ x y, a.body = .castOpen x → b.body = .castOpen y → x.cast ≠ y.cast) :
    m.orphans = m.records.filterMap m.opened? := by
  have casts : ((m.records.filterMap Record.orphan?).filter fun o => !m.records.any fun r => r.ends o.cast).Pairwise
      fun a b => a.cast ≠ b.cast := by
    refine List.Pairwise.filter _ (distinct.filterMap _ fun a b other x made y makes => ?_)
    obtain ⟨f, first, opens⟩ := orphan?_eq_some made
    obtain ⟨g, second, opened⟩ := orphan?_eq_some makes
    rw [← opens, ← opened]
    exact other f g first second
  rw [Mounted.orphans, firstOfCast_distinct casts, List.filter_filterMap]
  rfl

/-! ### Damage (R167) -/

/-- The position within 4,096 of the tail that has a block (R158). -/
def Mounted.position (m : Mounted) (block : Nat) : Seq :=
  m.tail + BitVec.ofNat 32 ((block + 4096 - blockOf m.tail) % 4096)

theorem blockOf_position (m : Mounted) (small : block < 4096) : blockOf (m.position block) = block := by
  simp only [Mounted.position, blockOf, BitVec.toNat_add, BitVec.toNat_ofNat]
  omega

theorem position_eq (near : (p - m.tail).toNat < 4096) : m.position (blockOf p) = p := by
  refine BitVec.eq_of_toNat_eq ?_
  simp only [Mounted.position, blockOf, BitVec.toNat_add, BitVec.toNat_ofNat, BitVec.toNat_sub] at near ⊢
  have := p.isLt
  have := m.tail.isLt
  omega

/-- The records of a list behind a position, the first of them the next (R167). -/
def Mounted.next (m : Mounted) (p : Seq) : Option Record :=
  m.records.find? fun r => decide ((p - m.tail).toNat < placeOf m.tail r)

theorem damaged_iff (m : Mounted) (block : Nat) : m.damaged block = true ↔
    (m.position block - m.tail).toNat < (m.head - m.tail).toNat
      ∧ ∀ r, m.next (m.position block) = some r → r.skip < (r.seq - m.position block).toNat := by
  unfold Mounted.damaged Mounted.next Mounted.position
  rw [Bool.and_eq_true, decide_eq_true_iff]
  refine and_congr_right fun _ => ?_
  split
  next found =>
    rw [found]
    exact decide_eq_true_iff.trans ⟨fun skips r same => Option.some_inj.1 same ▸ skips, fun skips => skips _ rfl⟩
  next found =>
    rw [found]
    exact iff_of_true rfl fun _ => nofun

/-- With distinct sequence numbers the next record is the nearest behind the position. -/
theorem next_iff (distinct : good.Pairwise fun a b => a.seq ≠ b.seq) :
    (mountPositions good).next p = some r ↔
      let m := mountPositions good
      r ∈ m.records ∧ (p - m.tail).toNat < placeOf m.tail r
        ∧ ∀ q ∈ m.records, (p - m.tail).toNat < placeOf m.tail q → placeOf m.tail r ≤ placeOf m.tail q := by
  have nearest {r : Record} (found : (mountPositions good).next p = some r) :
      let m := mountPositions good
      r ∈ m.records ∧ (p - m.tail).toNat < placeOf m.tail r
        ∧ ∀ q ∈ m.records, (p - m.tail).toNat < placeOf m.tail q → placeOf m.tail r ≤ placeOf m.tail q := by
    obtain ⟨behind, before, later, split, passed⟩ := List.find?_eq_some_iff_append.1 found
    refine ⟨List.mem_of_find?_eq_some found, of_decide_eq_true behind, fun q member after => ?_⟩
    have sorted := mountPositions_sorted good
    rw [split] at sorted member
    obtain early | rfl | late := (List.mem_append.1 member).imp_right List.mem_cons.1
    · have stops := passed q early
      rw [decide_eq_true after] at stops
      cases stops
    · exact le_rfl
    · exact List.rel_of_pairwise_cons (List.pairwise_append.1 sorted).2.1 late
  refine ⟨nearest, fun ⟨member, behind, least⟩ => ?_⟩
  cases found : (mountPositions good).next p with
  | none => exact absurd (decide_eq_true behind) (List.find?_eq_none.1 found r member)
  | some q =>
    obtain ⟨held, after, first⟩ := nearest found
    have place : placeOf (mountPositions good).tail q = placeOf (mountPositions good).tail r :=
      le_antisymm (first r member behind) (least q held after)
    have seq : q.seq = r.seq := sub_left_inj.1 (BitVec.eq_of_toNat_eq place)
    exact congrArg some
      (List.inj_on_of_nodup_map (List.pairwise_map.2 distinct) (mem_mountPositions.1 held).1
        (mem_mountPositions.1 member).1 seq)

/-- A bad block is damage just when it has an unreleased position that the next record has not skipped. -/
theorem damaged_iff_position (distinct : good.Pairwise fun a b => a.seq ≠ b.seq) (small : block < 4096)
    (near : ((mountPositions good).head - (mountPositions good).tail).toNat ≤ 4096) :
    (mountPositions good).damaged block = true ↔
      let m := mountPositions good
      ∃ p : Seq, blockOf p = block ∧ (p - m.tail).toNat < (m.head - m.tail).toNat
        ∧ ∀ r ∈ m.records, (p - m.tail).toNat < (r.seq - m.tail).toNat →
          (∀ q ∈ m.records, (p - m.tail).toNat < (q.seq - m.tail).toNat →
            (r.seq - m.tail).toNat ≤ (q.seq - m.tail).toNat) →
          r.skip < (r.seq - p).toNat := by
  rw [damaged_iff]
  constructor
  · rintro ⟨unreleased, skips⟩
    exact ⟨_, blockOf_position _ small, unreleased,
      fun r member behind least => skips r ((next_iff distinct).2 ⟨member, behind, least⟩)⟩
  · rintro ⟨p, rfl, unreleased, skips⟩
    rw [position_eq (unreleased.trans_le near)]
    refine ⟨unreleased, fun r next => ?_⟩
    obtain ⟨member, behind, least⟩ := (next_iff distinct).1 next
    exact skips r member behind least

end Sys2Proof.Machine
end

section
/-! The mount's block reads and what they leave (R157, R167, R168). -/

namespace Sys2Proof.Machine

variable {s : State} {a : StoreAnswer} {m : Mounted} {good : List Record}

/-! ### The mount completes (R167, R168) -/

/-- The Journal Port as the mount leaves it. -/
def journalMounted (m : Mounted) (j : Journal) : Journal :=
  { j with
    mount := .ready, head := m.head, tail := m.tail, reservations := 0, queue := [], consecutive := 0, failed := false
    castCount := m.castCount, lastClose := m.lastClose, orphans := m.orphans.take 4
    unlisted := min 65535 (m.orphans.length - 4), mountBlock := 0, mountGood := [], mountBad := [] }

/-- The Duty Accountant as the mount leaves it. -/
def dutyMounted (m : Mounted) (u : Duty) : Duty :=
  match m.tariff with
  | some (image, seq) => { u with account := m.account, tariff := .active, active := image, activeSeq := seq }
  | none => { u with account := m.account }

/-- A condition latched when its cause has occurred. -/
def latchIf (cause : Bool) (c : Cond) (s : State) : State := if cause then latch c s else s

theorem latchIf_eq (cause : Bool) (c : Cond) (s : State) :
    ∃ l, latchIf cause c s = { s with agent := { s.agent with latched := l } } := by
  unfold latchIf
  split
  · exact latch_eq c s
  · exact ⟨_, rfl⟩

theorem mem_latchIf {cause : Bool} {c x : Cond} :
    x ∈ (latchIf cause c s).agent.latched ↔ x ∈ s.agent.latched ∨ (cause = true ∧ x = c) := by
  have latched : (s.latched c).agent.latched
      = if c ∈ s.agent.latched then s.agent.latched else s.agent.latched ++ [c] := rfl
  unfold latchIf
  split
  next occurred =>
    rw [latch_eq_latched, latched]
    split
    next held => exact ⟨.inl, fun h => h.elim id fun ⟨_, same⟩ => same ▸ held⟩
    next => simp [occurred]
  next quiet => simp [quiet]

/-- What the good and the bad blocks read make of a part at the end of the mount. -/
def mountedBy (m : Mounted) (bad : List Nat) (s : State) : State :=
  latchIf (decide (4 < m.orphans.length)) .orphanOverflow (latchIf (bad.any m.damaged) .journalDamaged
    { s with journal := journalMounted m s.journal, duty := dutyMounted m s.duty })

theorem mountComplete_eq (s : State) :
    mountComplete s = mountedBy (mountPositions s.journal.mountGood) s.journal.mountBad s := by
  unfold mountComplete mountedBy latchIf dutyMounted
  simp only [decide_eq_true_iff]
  cases (mountPositions s.journal.mountGood).tariff <;> rfl

theorem mountedBy_agent (m : Mounted) (bad : List Nat) (s : State) : ∃ l, mountedBy m bad s =
    { s with
      journal := journalMounted m s.journal, duty := dutyMounted m s.duty
      agent := { s.agent with latched := l } } := by
  unfold mountedBy
  obtain ⟨damage, noted⟩ := latchIf_eq (bad.any m.damaged) .journalDamaged
    { s with journal := journalMounted m s.journal, duty := dutyMounted m s.duty }
  rw [noted]
  exact latchIf_eq ..

theorem mountedBy_journal (m : Mounted) (bad : List Nat) (s : State) :
    (mountedBy m bad s).journal = journalMounted m s.journal := by
  obtain ⟨l, same⟩ := mountedBy_agent m bad s
  rw [same]

theorem mountedBy_duty (m : Mounted) (bad : List Nat) (s : State) : (mountedBy m bad s).duty = dutyMounted m s.duty := by
  obtain ⟨l, same⟩ := mountedBy_agent m bad s
  rw [same]

theorem mountedBy_tells (m : Mounted) (bad : List Nat) (s : State) : (mountedBy m bad s).tells = s.tells := by
  obtain ⟨l, same⟩ := mountedBy_agent m bad s
  rw [same]

theorem mountedBy_works (m : Mounted) (bad : List Nat) (s : State) : (mountedBy m bad s).works = s.works := by
  obtain ⟨l, same⟩ := mountedBy_agent m bad s
  rw [same]
  rfl

theorem mem_latched_mountedBy {bad : List Nat} {c : Cond} : c ∈ (mountedBy m bad s).agent.latched ↔
    c ∈ s.agent.latched ∨ (bad.any m.damaged = true ∧ c = .journalDamaged)
      ∨ (4 < m.orphans.length ∧ c = .orphanOverflow) := by
  rw [mountedBy, mem_latchIf, mem_latchIf, decide_eq_true_iff, or_assoc]

theorem dutyMounted_account (m : Mounted) (u : Duty) : (dutyMounted m u).account = m.account := by
  unfold dutyMounted
  split <;> rfl

theorem dutyMounted_some {image : TariffImage} {seq : Seq} (u : Duty) (tariff : m.tariff = some (image, seq)) :
    (dutyMounted m u).tariff = .active ∧ (dutyMounted m u).active = image ∧ (dutyMounted m u).activeSeq = seq := by
  unfold dutyMounted
  rw [tariff]
  exact ⟨rfl, rfl, rfl⟩

theorem dutyMounted_none (u : Duty) (tariff : m.tariff = none) : (dutyMounted m u).tariff = u.tariff := by
  unfold dutyMounted
  rw [tariff]

/-! ### A block read (R157, R167) -/

/-- The good records read, with a block of a class read behind them. -/
def goodAfter (kind : BlockClass) (good : List Record) : List Record :=
  match kind with
  | .good r => good ++ [r]
  | .erased => good
  | .bad => good

theorem mountClassify_eq (bytes : List Byte) (j : Journal) : mountClassify bytes j =
    { j with
      mountBlock := j.mountBlock + 1
      mountGood := goodAfter (classifyBlock j.mountBlock bytes) j.mountGood
      mountBad := if classifyBlock j.mountBlock bytes = .bad then j.mountBad ++ [j.mountBlock] else j.mountBad } := by
  unfold mountClassify goodAfter
  cases classifyBlock j.mountBlock bytes <;> simp

/-- The part with the block read by the store's answer classified. -/
def blockClassified (a : StoreAnswer) (s : State) : State :=
  { s with
    store := (readBlock s.journal.mountBlock a s.store).2
    journal := mountClassify (readBlock s.journal.mountBlock a s.store).1 s.journal }

theorem mountBlockDone_eq (mounting : s.journal.mount = .mounting) : mountBlockDone a s =
    if 4095 ≤ s.journal.mountBlock then mountComplete (blockClassified a s) else blockClassified a s := by
  have block : (blockClassified a s).journal.mountBlock = s.journal.mountBlock + 1 :=
    congrArg Journal.mountBlock (mountClassify_eq ..)
  have last : 4096 ≤ (blockClassified a s).journal.mountBlock ↔ 4095 ≤ s.journal.mountBlock := by
    rw [block, Nat.succ_le_succ_iff]
  exact (if_pos mounting).trans (if_congr last rfl rfl)

/-- What the last block read leaves: the journal and duty as the records give them, the conditions latched, and all else
but the store as it was. -/
structure Mounts (m : Mounted) (bad : List Nat) (st : Store) (s t : State) : Prop where
  journal : t.journal = journalMounted m s.journal
  duty    : t.duty = dutyMounted m s.duty
  latched : ∀ c, c ∈ t.agent.latched ↔ c ∈ s.agent.latched ∨ (bad.any m.damaged = true ∧ c = .journalDamaged)
    ∨ (4 < m.orphans.length ∧ c = .orphanOverflow)
  works   : t.works = { s.works with store := st }

namespace Mounts

variable {bad : List Nat} {st : Store} {t : State}

theorem tariff_some {image : TariffImage} {seq : Seq} (h : Mounts m bad st s t) (tariff : m.tariff = some (image, seq)) :
    t.duty.tariff = .active ∧ t.duty.active = image ∧ t.duty.activeSeq = seq :=
  h.duty ▸ dutyMounted_some s.duty tariff

theorem tariff_none (h : Mounts m bad st s t) (tariff : m.tariff = none) : t.duty.tariff = s.duty.tariff :=
  h.duty ▸ dutyMounted_none s.duty tariff

theorem account (h : Mounts m bad st s t) : t.duty.account = m.account := h.duty ▸ dutyMounted_account ..

theorem journalDamaged (h : Mounts m bad st s t) : Cond.journalDamaged ∈ t.agent.latched ↔
    Cond.journalDamaged ∈ s.agent.latched ∨ ∃ b ∈ bad, m.damaged b = true := by
  rw [h.latched, List.any_eq_true]
  exact or_congr_right ⟨fun noted => (noted.resolve_right fun ⟨_, other⟩ => nomatch other).1,
    fun held => .inl ⟨held, rfl⟩⟩

theorem orphanOverflow (h : Mounts m bad st s t) (more : 4 < m.orphans.length) :
    Cond.orphanOverflow ∈ t.agent.latched := (h.latched _).2 (.inr (.inr ⟨more, rfl⟩))

end Mounts

theorem mountBlockReadDone_last (active : s.mode = .active) (quiet : s.tells = [])
    (mounting : s.journal.mount = .mounting) (last : 4095 ≤ s.journal.mountBlock) :
    let block := readBlock s.journal.mountBlock a s.store
    let kind := classifyBlock s.journal.mountBlock block.1
    let bad := if kind = .bad then s.journal.mountBad ++ [s.journal.mountBlock] else s.journal.mountBad
    ∃ t, exec (.mountBlockReadDone a) s = .next t
      ∧ Mounts (mountPositions (goodAfter kind s.journal.mountGood)) bad block.2 s t := by
  intro block kind bad
  let m := mountPositions (goodAfter kind s.journal.mountGood)
  have done : mountBlockDone a s = mountedBy m bad (blockClassified a s) := by
    rw [mountBlockDone_eq mounting, if_pos last, mountComplete_eq]
    simp only [blockClassified, mountClassify_eq]
    rfl
  have journal := mountedBy_journal m bad (blockClassified a s)
  have duty := mountedBy_duty m bad (blockClassified a s)
  have tells := mountedBy_tells m bad (blockClassified a s)
  have works := mountedBy_works m bad (blockClassified a s)
  have latched (c : Cond) := mem_latched_mountedBy (m := m) (bad := bad) (s := blockClassified a s) (c := c)
  generalize mountedBy m bad (blockClassified a s) = u at done journal duty tells works latched
  have rest := settle_rest (tells.trans quiet)
  refine ⟨settle u, ?_, ?_, ?_, fun c => ?_, ?_⟩
  · exact congrArg Host.Outcome.next ((if_pos active).trans (congrArg settle done))
  · simp only [blockClassified, mountClassify_eq] at journal
    exact (congrArg State.journal rest :).trans journal
  · exact (congrArg State.duty rest :).trans duty
  · have same : (settle u).agent.latched = u.agent.latched := (congrArg (fun u : State => u.agent.latched) rest :)
    exact same ▸ latched c
  · exact (settle_works u).trans works

/-! ### The statement -/

/-- Settles O54: the positions, the figures that the records give, and a block read before the last and at the last. -/
theorem mountReadsEveryBlock : Obligations.MountReadsEveryBlock := by
  refine ⟨fun r good => mountPositions_head, fun good unreleased => ?_, fun r b good member body latest => ?_,
    fun good => ?_, fun a s active quiet mounting => ?_⟩
  · rw [mountPositions_tail, mountPositions_release_none unreleased]
    rfl
  · rw [mountPositions_tail, mountPositions_release ⟨member, release?_eq_some_iff.1 body, latest⟩]
    rfl
  · refine ⟨fun r => mem_mountPositions, mountPositions_sorted good, fun r k last body => ?_,
      fun stays =>
        ⟨fun r b latest => lastClose_of_release latest stays, fun unreleased => lastClose_none unreleased stays⟩,
      fun r member n => numbered_le_castCount member,
      fun r b latest => carried_le_castCount (mountPositions_release latest), fun nonzero => ?_, fun base of => ?_⟩
    · rw [lastClose_eq, lastPeriod_eq last body]
      rfl
    · refine (castCount_mem nonzero).imp_right fun ⟨x, release, count⟩ => ?_
      obtain ⟨r, member, body⟩ := release_of_mountPositions release
      exact ⟨r, member, x.2, body, count⟩
    · obtain rfl : (mountPositions good).base = base := base_eq of
      exact account_eq
  · intro j block kind good bad
    refine ⟨fun more => ?_, fun last => ?_⟩
    · have run : mountBlockDone a s = blockClassified a s := by
        rw [mountBlockDone_eq mounting, if_neg (Nat.not_le.2 more)]
      rw [blockClassified, mountClassify_eq] at run
      exact leaves_active (mountBlockDone a) rfl active run quiet
    · obtain ⟨t, run, ends⟩ := mountBlockReadDone_last (a := a) active quiet mounting last
      have ends : Mounts (mountPositions good) bad block.2 s t := ends
      clear_value good bad
      have journal := ends.journal
      refine ⟨t, run, congrArg State.store ends.works, ?_, ends.works⟩
      intro k m
      refine ⟨congrArg Journal.mount journal, congrArg Journal.queue journal, congrArg Journal.reservations journal,
        congrArg Journal.consecutive journal, congrArg Journal.failed journal, congrArg Journal.head journal,
        congrArg Journal.tail journal, congrArg Journal.castCount journal, congrArg Journal.lastClose journal,
        ?_, ends.account, fun _ _ => ends.tariff_some,
        fun r image last body => ends.tariff_some (tariff_of_lastOf last body),
        fun untaxed => ⟨fun r b q latest carried => ends.tariff_some (tariff_of_release latest carried untaxed),
          fun unreleased => ends.tariff_none (tariff_none unreleased untaxed)⟩,
        fun distinct => ?_, fun distinct small near => ?_, ?_⟩
      · exact (congrArg (fun j : Journal => j.orphans.length) journal).trans_le (List.length_take_le ..)
      · intro opened
        have orphans : m.orphans = opened := by
          refine (orphans_of_distinct distinct).trans (List.filterMap_congr fun r _ => ?_)
          split
          next b body => exact opened?_castOpen m body
          all_goals exact opened?_other m (by simp [*])
        rw [← orphans]
        exact ⟨congrArg Journal.orphans journal, congrArg Journal.unlisted journal, ends.orphanOverflow⟩
      · refine ends.journalDamaged.trans (or_congr_right (exists_congr fun b => and_congr_right fun member => ?_))
        exact damaged_iff_position distinct (small b member) near
      · rintro rfl
        exact ⟨congrArg Journal.head journal, congrArg Journal.tail journal, congrArg Journal.castCount journal,
          congrArg Journal.lastClose journal, congrArg Journal.orphans journal, ends.tariff_none rfl, ends.account⟩

end Sys2Proof.Machine
end

section
/-! Journal records read back (10.1, R157): numbers and codes as the bytes that hold them, the bodies, and the block. -/

namespace Sys2Proof.Machine

variable {α : Type} {q : Seq} {d : Draft} {n w : Nat}

/-! ### Numbers (R172) -/

theorem natOf_cons (b : Byte) (bs : List Byte) : natOf (b :: bs) = b.toNat * 256 ^ bs.length + natOf bs := by
  have start (bs : List Byte) (a : Nat) :
      bs.foldl (fun a b => a * 256 + b.toNat) a = a * 256 ^ bs.length + natOf bs := by
    induction bs generalizing a with
    | nil => simp [natOf]
    | cons b bs ih =>
      rw [natOf, List.foldl_cons, List.foldl_cons, ih, ih (0 * 256 + b.toNat), List.length_cons]
      ring
  rw [natOf, List.foldl_cons, start, Nat.zero_mul, Nat.zero_add]

/-- The bytes of a number stand for its low bytes. -/
theorem natOf_digits (w n : Nat) : natOf (digits w n) = n % 256 ^ w := by
  induction w with
  | zero => simp [digits, natOf, Nat.mod_one]
  | succ w ih =>
    rw [digits, natOf_cons, ih, digits_length, BitVec.toNat_ofNat, Nat.pow_succ 256, Nat.mod_mul, Nat.add_comm,
      Nat.mul_comm]

theorem natOf_num (small : n < 2 ^ (8 * w)) : natOf (num w n) = n := by
  rw [num, fit_of_lt small, natOf_digits, Nat.mod_eq_of_lt]
  rwa [show 256 = 2 ^ 8 by rfl, ← Nat.pow_mul]

theorem natOf_num_seq (q : Seq) : natOf (num 4 q.toNat) = q.toNat := natOf_num q.isLt

/-! ### Readers -/

/-- A reader takes some bytes off the front as a value, whatever follows them. -/
def Reads (f : List Byte → α × List Byte) (bs : List Byte) (a : α) : Prop := ∀ rest, f (bs ++ rest) = (a, rest)

theorem readNum_num (small : n < 2 ^ (8 * w)) : Reads (readNum w) (num w n) n := fun rest => by
  rw [readNum, List.take_left' (num_length w n), List.drop_left' (num_length w n), natOf_num small]

theorem readCode_num {last : Nat} (named : n ≤ last) (coded : last ≤ 255) : Reads (readCode last) (num 1 n) n :=
  fun rest => by
    have byte : (BitVec.ofNat 8 n).toNat = n := Nat.mod_eq_of_lt (by omega)
    simp [readCode, num_one (named.trans coded), byte, named]

theorem readSeq_num (q : Seq) : Reads readSeq (num 4 q.toNat) q := fun rest => by
  simp [readSeq, readNum_num (w := 4) q.isLt rest]

theorem readPair_num {a b : Nat} {p : Nat × Nat} (first : p.1 < 2 ^ (8 * a)) (second : p.2 < 2 ^ (8 * b)) :
    Reads (readPair a b) (num a p.1 ++ num b p.2) p := fun rest => by
  simp [readPair, readNum_num first _, readNum_num second _]

/-- Entries that are each read back are read back one after another. -/
theorem readMany_flatMap {f : List Byte → α × List Byte} {g : α → List Byte} {l : List α}
    (each : ∀ a ∈ l, Reads f (g a) a) : Reads (readMany f l.length) (l.flatMap g) l := by
  induction l with
  | nil => exact fun _ => rfl
  | cons a l ih =>
    intro rest
    have later := ih (fun b mem => each b (List.mem_cons_of_mem a mem)) rest
    simp [readMany, each a List.mem_cons_self _, later]

/-! ### Bodies (10.1) -/

theorem readCastOpen_bytes {b : OpenBody} (cast : b.cast < 2 ^ 32) (fermenter : b.fermenter < 256)
    (strain : b.strain < 256) (rate : b.rate < 65536) : Reads readCastOpen (bodyBytes (.castOpen b)) b := by
  intro rest
  have gravity : gravityPolicyCode b.gravity ≤ 1 := by cases b.gravity <;> decide
  have lag : lagPolicyCode b.lag ≤ 1 := by cases b.lag <;> decide
  have policy : (if gravityPolicyCode b.gravity = 0 then GravityPolicy.holdLast else .pause) = b.gravity := by
    cases b.gravity <;> rfl
  have lags : (if lagPolicyCode b.lag = 0 then LagPolicy.pause else .continue_) = b.lag := by cases b.lag <;> rfl
  simp only [bodyBytes, readCastOpen, List.append_assoc, readNum_num (w := 4) cast _,
    readNum_num (w := 1) fermenter _, readSeq_num b.opened _, readSeq_num b.tariffSeq _,
    readNum_num (w := 1) strain _, readNum_num (w := 2) rate _, readCode_num gravity (by decide) _,
    readCode_num lag (by decide) _, policy, lags]

theorem readPeriodClose_bytes {b : CloseBody} (period : b.period < 65536) (casts : b.casts < 2 ^ 32)
    (dl : b.dl < 2 ^ 64) (cdl : b.cdl < 2 ^ 64) (duty : b.duty < 2 ^ 64) (ytd : b.ytd < 2 ^ 64)
    (castCount : b.castCount < 2 ^ 32) : Reads readPeriodClose (bodyBytes (.periodClose b)) b := by
  intro rest
  have yearEnd : (b.yearEnd.toNat == 1) = b.yearEnd := by cases b.yearEnd <;> rfl
  simp only [bodyBytes, readPeriodClose, List.append_assoc, readNum_num (w := 2) period _,
    readNum_num (w := 4) casts _, readNum_num (w := 8) dl _, readNum_num (w := 8) cdl _,
    readNum_num (w := 8) duty _, readNum_num (w := 8) ytd _, readCode_num b.yearEnd.toNat_le (by decide) _,
    readNum_num (w := 4) castCount _, yearEnd]

theorem readImage_bytes {i : TariffImage} (bands : i.bands.length = 8) (tiers : i.tiers.length = 4)
    (allowance : i.allowance < 2 ^ 24) (bandCount : i.bandCount < 256) (tierCount : i.tierCount < 256)
    (band : ∀ b ∈ i.bands, b.1 < 65536 ∧ b.2 < 2 ^ 24) (tier : ∀ t ∈ i.tiers, t.1 < 2 ^ 32 ∧ t.2 < 2 ^ 24) :
    Reads readImage (imageBytes i) i := by
  intro rest
  have bandsRead := readMany_flatMap fun b mem =>
    readPair_num (a := 2) (b := 3) (band b mem).1 (band b mem).2
  have tiersRead := readMany_flatMap fun t mem =>
    readPair_num (a := 4) (b := 3) (tier t mem).1 (tier t mem).2
  rw [bands] at bandsRead
  rw [tiers] at tiersRead
  simp only [imageBytes, readImage, List.append_assoc, readNum_num (w := 3) allowance _,
    readNum_num (w := 1) bandCount _, readNum_num (w := 1) tierCount _, bandsRead _, tiersRead _]

theorem bodyKind_range (b : Body) : 1 ≤ bodyKind b ∧ bodyKind b ≤ 6 := by
  cases b <;> simp [bodyKind]

/-- A body of a kind is read as a body of that kind. -/
theorem bodyKind_readBody (b : Body) (brew : Nat) (bs : List Byte) :
    bodyKind (readBody (bodyKind b) brew bs).1 = bodyKind b := by
  cases b <;> simp only [bodyKind, readBody]

/-! ### The block (R157) -/

/-- The 498 bytes of a block between its header and its check word: the body fields and zeros (10.1). -/
def paddedBody (b : Body) : List Byte := (bodyBytes b ++ List.replicate 498 0).take 498

/-- The body fields stand at the front where they fit. -/
theorem paddedBody_eq {b : Body} (fits : (bodyBytes b).length ≤ 498) :
    ∃ zeros, paddedBody b = bodyBytes b ++ zeros :=
  ⟨_, by rw [paddedBody, List.take_append, List.take_of_length_le fits]⟩

theorem paddedBody_length (b : Body) : (paddedBody b).length = 498 := by
  rw [paddedBody, List.length_take, List.length_append, List.length_replicate]
  omega

/-- The check word of a record and its copy. -/
def checkBytes (q : Seq) (d : Draft) : List Byte := wordBytes (~~~ (xorWords (blockHead q d)))

theorem blockBytes_eq (q : Seq) (d : Draft) : blockBytes q d = blockHead q d ++ (checkBytes q d ++ checkBytes q d) :=
  List.append_assoc ..

/-- The record of a block, by the fields of its header: sequence, kind, skip count, brew number, period number. -/
theorem blockBytes_header (q : Seq) (d : Draft) : blockBytes q d = num 4 q.toNat ++ (num 1 (bodyKind d.body)
    ++ (num 1 d.skip ++ (num 2 d.brew ++ (num 2 d.period
      ++ (paddedBody d.body ++ (checkBytes q d ++ checkBytes q d)))))) := by
  simp only [blockBytes_eq, blockHead, paddedBody, List.append_assoc]

/-- A field of some bytes, cut out by its place and its length. -/
theorem field_of_append {bs pre field post : List Byte} {start : Nat} (bytes : bs = pre ++ (field ++ post))
    (place : pre.length = start) (length : field.length = n) : (bs.drop start).take n = field := by
  rw [bytes, List.drop_left' place, List.take_left' length]

theorem blockBytes_kind (q : Seq) (d : Draft) : ((blockBytes q d).getD 4 0).toNat = bodyKind d.body := by
  obtain ⟨_, most⟩ := bodyKind_range d.body
  have byte : (BitVec.ofNat 8 (bodyKind d.body)).toNat = bodyKind d.body := Nat.mod_eq_of_lt (by omega)
  rw [blockBytes_header, num_one (most.trans (by decide)), List.getD_append_right _ _ _ _ (num_length ..).le,
    num_length]
  exact byte

theorem blockBytes_skip (q : Seq) (small : d.skip ≤ 255) : ((blockBytes q d).getD 5 0).toNat = d.skip := by
  have byte : (BitVec.ofNat 8 d.skip).toNat = d.skip := Nat.mod_eq_of_lt (by omega)
  rw [blockBytes_header, num_one small, List.getD_append_right _ _ _ _ (by simp),
    List.getD_append_right _ _ _ _ (by simp)]
  simpa using byte

theorem natOf_blockBytes_seq (q : Seq) (d : Draft) : natOf ((blockBytes q d).take 4) = q.toNat := by
  rw [blockBytes_header, List.take_left' (num_length ..), natOf_num_seq]

theorem natOf_blockBytes_brew (q : Seq) (small : d.brew < 65536) :
    natOf (((blockBytes q d).drop 6).take 2) = d.brew := by
  rw [field_of_append (pre := num 4 q.toNat ++ (num 1 (bodyKind d.body) ++ num 1 d.skip))
    (by simp only [blockBytes_header, List.append_assoc]; rfl) (by simp) (num_length 2 d.brew), natOf_num small]

theorem natOf_blockBytes_period (q : Seq) (small : d.period < 65536) :
    natOf (((blockBytes q d).drop 8).take 2) = d.period := by
  rw [field_of_append (pre := num 4 q.toNat ++ (num 1 (bodyKind d.body) ++ (num 1 d.skip ++ num 2 d.brew)))
    (by simp only [blockBytes_header, List.append_assoc]; rfl) (by simp) (num_length 2 d.period), natOf_num small]

theorem blockBytes_body (q : Seq) (d : Draft) : ((blockBytes q d).drop 10).take 498 = paddedBody d.body :=
  field_of_append
    (pre := num 4 q.toNat ++ (num 1 (bodyKind d.body) ++ (num 1 d.skip ++ (num 2 d.brew ++ num 2 d.period))))
    (by simp only [blockBytes_header, List.append_assoc]; rfl) (by simp) (paddedBody_length d.body)

theorem xorWords_wordBytes (w : BitVec 16) : xorWords (wordBytes w) = w := by
  simpa [wordBytes, xorWords] using word_of_bytes w

/-- The record's block is a good one of its position, so not erased: its kind is no 255. -/
theorem blockBytes_good (q : Seq) (d : Draft) :
    classifyBlock (blockOf q) (blockBytes q d) = .good (recordOf (blockBytes q d)) := by
  obtain ⟨least, most⟩ := bodyKind_range d.body
  have written : blockBytes q d ≠ erasedBlock := fun erased => by
    have kind := blockBytes_kind q d
    rw [erased] at kind
    have all : ((erasedBlock.getD 4 0 : Byte)).toNat = 255 := by decide
    omega
  have head : (blockBytes q d).take 508 = blockHead q d := by
    rw [blockBytes_eq, List.take_left' (blockHead_length q d)]
  have check : ((blockBytes q d).drop 508).take 2 = checkBytes q d :=
    field_of_append (blockBytes_eq q d) (blockHead_length q d) rfl
  have copy : ((blockBytes q d).drop 510).take 2 = checkBytes q d :=
    field_of_append (pre := blockHead q d ++ checkBytes q d) (post := []) (by simp [blockBytes_eq])
      (by rw [List.length_append, blockHead_length]; rfl) rfl
  have sums : xorWords (blockHead q d) ^^^ xorWords (checkBytes q d) = BitVec.allOnes 16 := by
    rw [checkBytes, xorWords_wordBytes, BitVec.not_def, ← BitVec.xor_assoc, BitVec.xor_comm, ← BitVec.xor_assoc,
      BitVec.xor_self, BitVec.zero_xor]
  have good : isGoodBlock (blockOf q) (blockBytes q d) = true := by
    simp only [isGoodBlock, head, check, copy, sums, blockBytes_kind, natOf_blockBytes_seq, blockOf, least, most,
      beq_self_eq_true, and_self, decide_true, Bool.and_self]
  rw [classifyBlock, if_neg written, if_pos good]

/-- The record read from the block: its header, and the body that its kind's reader makes of the fields. -/
theorem recordOf_blockBytes (q : Seq) (skip : d.skip ≤ 255) (brew : d.brew < 65536) (period : d.period < 65536) :
    recordOf (blockBytes q d) = { seq := q, skip := d.skip, brew := d.brew, period := d.period
                                  body := (readBody (bodyKind d.body) d.brew (paddedBody d.body)).1 } := by
  rw [recordOf, natOf_blockBytes_seq, blockBytes_skip q skip, natOf_blockBytes_brew q brew,
    natOf_blockBytes_period q period, blockBytes_kind, blockBytes_body, BitVec.ofNat_toNat, BitVec.setWidth_eq]

/-- A body whose fields its reader takes whole comes back from the bytes of a block. -/
theorem readBody_padded {b : Body} {brew : Nat} (fits : (bodyBytes b).length ≤ 498)
    (reads : Reads (readBody (bodyKind b) brew) (bodyBytes b) b) :
    (readBody (bodyKind b) brew (paddedBody b)).1 = b := by
  obtain ⟨zeros, padded⟩ := paddedBody_eq fits
  rw [padded, reads]

/-- Settles O13: the block is good, its header comes back, and so does a body of three kinds by its reader. -/
theorem journalRecordsReadBack : Obligations.JournalRecordsReadBack := by
  intro q d skip brew period
  refine ⟨blockBytes_length q d, _, ?_, bodyKind_readBody d.body d.brew (paddedBody d.body),
    fun b body cast fermenter strain rate => ?_,
    fun b body number casts dl cdl duty ytd castCount => ?_,
    fun i body bands tiers allowance bandCount tierCount band tier => ?_⟩
  · rw [blockBytes_good, recordOf_blockBytes q skip brew period]
  all_goals rw [body]; refine readBody_padded ?_ fun rest => ?_
  · simp [bodyBytes]
  · simp only [bodyKind, readBody, readCastOpen_bytes cast fermenter strain rate rest]
  · simp [bodyBytes]
  · simp only [bodyKind, readBody, readPeriodClose_bytes number casts dl cdl duty ytd castCount rest]
  · simp [bodyBytes, imageBytes, List.length_flatMap, bands, tiers]
  · have image := readImage_bytes bands tiers allowance bandCount tierCount band tier rest
    simp only [bodyKind, bodyBytes, readBody, image]

end Sys2Proof.Machine
end

section
/-! The Journal Port: when a write begins and when a waiting read takes the store (R161 to R163, R166), and the stages
of a write. -/

namespace Sys2Proof.Machine

variable {s : State} {d : Draft} {rest : List Draft} {a : StoreAnswer}

/-! ### When a write begins (R161, R163) -/

theorem writeOrder_empty (empty : s.journal.queue = []) : writeOrder s = none := by
  unfold writeOrder castCloseFirst
  rw [empty]
  split <;> rfl

/-- Without the power-fail warning the queue is written in order. -/
theorem writeOrder_cons (power : s.pins.powerFail = false) (queue : s.journal.queue = d :: rest) :
    writeOrder s = some (d :: rest) := by
  unfold writeOrder
  rw [power, queue]
  rfl

theorem canBeginWrite_iff (s : State) : canBeginWrite s = true ↔ s.journal.op = .free ∧ s.journal.mount = .ready
    ∧ s.journal.failed = false ∧ s.pins.protect = false ∧ (writeOrder s).isSome = true := by
  simp only [canBeginWrite, Bool.and_eq_true, beq_iff_eq, Bool.not_eq_true', and_assoc]

theorem writeIfPossible_held (held : s.pins.protect = true ∨ s.journal.op ≠ .free ∨ s.journal.mount ≠ .ready
    ∨ s.journal.failed = true ∨ s.journal.queue = []) : writeIfPossible s = s := by
  refine if_neg fun begins => ?_
  obtain ⟨free, ready, sound, unprotected, order⟩ := (canBeginWrite_iff s).1 begins
  obtain protect | busy | mounting | failed | empty := held
  · exact Bool.false_ne_true (unprotected.symm.trans protect)
  · exact busy free
  · exact mounting ready
  · exact Bool.false_ne_true (sound.symm.trans failed)
  · rw [writeOrder_empty empty] at order
    cases order

/-- Nothing holds the write of the record at the head of the queue (R161, R163). -/
structure Writable (d : Draft) (rest : List Draft) (s : State) : Prop where
  free    : s.journal.op = .free
  ready   : s.journal.mount = .ready
  sound   : s.journal.failed = false
  protect : s.pins.protect = false
  power   : s.pins.powerFail = false
  queue   : s.journal.queue = d :: rest

theorem Writable.begins (h : Writable d rest s) : writeIfPossible s = beginWrite s :=
  if_pos ((canBeginWrite_iff s).2
    ⟨h.free, h.ready, h.sound, h.protect, by rw [writeOrder_cons h.power h.queue]; rfl⟩)

theorem Draft.begun_plain (s : State) (plain : d.body.isRelease = false) : d.begun s = { d with placed := true } := by
  unfold Draft.begun
  cases body : d.body with
  | release b =>
    rw [body] at plain
    cases plain
  | _ => rfl

/-- The write of a record that is no RELEASE takes a position (R160, R161): its reservation is consumed at the first. -/
theorem Writable.begun (h : Writable d rest s) (plain : d.body.isRelease = false)
    (room : d.placed = true → freeRoom s.journal ≠ 0) : writeIfPossible s = { s with
      journal := { s.journal with
        queue := { d with placed := true } :: rest
        reservations := if d.placed then s.journal.reservations else s.journal.reservations - 1
        head := s.journal.head + 1
        op := .erasing } } := by
  have placeable : ¬(d.placed && freeRoom s.journal == 0) = true := by
    simpa only [Bool.and_eq_true, beq_iff_eq, not_and] using room
  rw [h.begins, beginWrite, writeOrder_cons h.power h.queue]
  simp only [if_neg placeable, Draft.begun_plain s plain]
  rfl

theorem Draft.placed_again (placed : d.placed = true) : ({ d with placed := true } : Draft) = d := by
  rw [← placed]

/-- A write begun again takes the next position (R162). -/
theorem Writable.begun_again (h : Writable d rest s) (placed : d.placed = true) (plain : d.body.isRelease = false)
    (room : freeRoom s.journal ≠ 0) : writeIfPossible s = { s with
      journal := { s.journal with head := s.journal.head + 1, op := .erasing } } := by
  rw [h.begun plain fun _ => room, if_pos placed, Draft.placed_again placed, ← h.queue]

/-- A record begun again finds no room: the queue fails (R161, R162). -/
theorem Writable.fails (h : Writable d rest s) (placed : d.placed = true) (full : freeRoom s.journal = 0) :
    writeIfPossible s = failQueue s := by
  rw [h.begins, beginWrite, writeOrder_cons h.power h.queue]
  simp only [placed, full, beq_self_eq_true, Bool.and_self, if_true]

/-! ### When a read takes the store (R166) -/

/-- A waiting read takes a free store unless a record goes first. -/
theorem startRead_eq (s : State) : startRead s = { s with journal := { s.journal with
    op := if s.journal.op = .free ∧ s.journal.reads ≠ [] ∧ ¬(s.journal.turn = .record ∧ canBeginWrite s = true)
      then .reading else s.journal.op } } := by
  unfold startRead
  split <;> rfl

/-- The queue fails: its records stand, and the store falls free or a read takes it (R161, R166). -/
theorem failQueue_eq (s : State) : ∃ op, failQueue s
      = { s with journal := { s.journal with failed := true, op := op, turn := .read } }
    ∧ (op = .free ∨ op = .reading) := by
  refine ⟨_, startRead_eq _, ?_⟩
  split
  · exact .inr rfl
  · exact .inl rfl

/-! ### The stages of a write (R161) -/

/-- A read-back that differs, counted and told (R161). -/
def badTold (s : State) : State :=
  withJournal (fun j => { j with consecutive := j.consecutive + 1 })
    (raise .journalBlockBad .none none (.num (blockOf (writePosition s.journal))) s)

theorem badTold_journal (s : State) :
    (badTold s).journal = { s.journal with consecutive := s.journal.consecutive + 1 } := by
  obtain ⟨_, raised⟩ := Prod.ext_iff.1
    (raise_books .journalBlockBad .none none (.num (blockOf (writePosition s.journal))) s)
  exact congrArg (fun j : Journal => { j with consecutive := j.consecutive + 1 }) raised

/-- The write goes on at the next position, the record's skip count raised (R161). -/
def Journal.movedOn (j : Journal) : Journal :=
  { j with
    queue := match j.queue with
      | d :: rest => { d with skip := saturate 255 d.skip } :: rest
      | [] => []
    head := j.head + 1
    op := .erasing }

theorem badPosition_movedOn (goes : ¬(3 ≤ (badTold s).journal.consecutive ∨ freeRoom (badTold s).journal = 0)) :
    (badPosition s).journal = (badTold s).journal.movedOn := congrArg State.journal (if_neg goes)

/-- Below three bad positions in a row and with room the write moves on (R161). -/
theorem badPosition_moves (queue : s.journal.queue = d :: rest) (few : s.journal.consecutive + 1 < 3)
    (room : freeRoom s.journal ≠ 0) : (badPosition s).journal = { s.journal with
      consecutive := s.journal.consecutive + 1, head := s.journal.head + 1, op := .erasing
      queue := { d with skip := min 255 (d.skip + 1) } :: rest } := by
  have journal := badTold_journal s
  have goes : ¬(3 ≤ (badTold s).journal.consecutive ∨ freeRoom (badTold s).journal = 0) := by
    rw [journal]
    exact not_or.2 ⟨Nat.not_le.2 few, room⟩
  rw [badPosition_movedOn goes, journal, Journal.movedOn]
  simp only [queue]
  rfl

/-- At the third bad position in a row, or without room, the queue fails (R161). -/
theorem badPosition_fails (stops : 3 ≤ s.journal.consecutive + 1 ∨ freeRoom s.journal = 0) :
    ∃ op, (badPosition s).journal = { s.journal with
        consecutive := s.journal.consecutive + 1, failed := true, op := op, turn := .read }
      ∧ (op = .free ∨ op = .reading) := by
  have journal := badTold_journal s
  have fails : 3 ≤ (badTold s).journal.consecutive ∨ freeRoom (badTold s).journal = 0 := by
    rw [journal]
    exact stops
  obtain ⟨op, failed, is⟩ := failQueue_eq (badTold s)
  exact ⟨op, (congrArg State.journal ((if_pos fails).trans failed)).trans (by rw [journal]), is⟩

theorem badPosition_consecutive (queue : s.journal.queue = d :: rest) :
    (badPosition s).journal.consecutive = s.journal.consecutive + 1 := by
  by_cases stops : 3 ≤ s.journal.consecutive + 1 ∨ freeRoom s.journal = 0
  · obtain ⟨op, failed, _⟩ := badPosition_fails stops
    rw [failed]
  · obtain ⟨few, room⟩ := not_or.1 stops
    rw [badPosition_moves queue (Nat.not_le.1 few) room]

/-- The block read back and found to differ (R161). -/
def blockDiffers (a : StoreAnswer) (s : State) : State :=
  badPosition { s with store := (readBlock (blockOf (s.journal.head - 1)) a s.store).2 }

theorem readback_differs (active : s.mode = .active) (verifying : s.journal.op = .verifying)
    (queue : s.journal.queue = d :: rest)
    (differing : (readBlock (blockOf (s.journal.head - 1)) a s.store).1 ≠ blockBytes (s.journal.head - 1) d) :
    exec (.journalReadbackDone a) s = .next (settle (blockDiffers a s)) := by
  refine congrArg Host.Outcome.next ((if_pos active).trans (congrArg settle ?_))
  unfold readbackDone
  simp only [verifying, queue]
  exact if_neg differing

theorem startRead_protected (protect : s.pins.protect = true) : startRead s = { s with journal := { s.journal with
    op := if s.journal.op = .free ∧ s.journal.reads ≠ [] then .reading else s.journal.op } } := by
  have held : canBeginWrite s = false := Bool.eq_false_iff.2 fun begins => by
    obtain ⟨_, _, _, unprotected, _⟩ := (canBeginWrite_iff s).1 begins
    exact Bool.false_ne_true (unprotected.symm.trans protect)
  rw [startRead_eq]
  simp only [held, Bool.false_eq_true, and_false, not_false_eq_true, and_true]

theorem eraseDone_erasing (erasing : s.journal.op = .erasing) : eraseDone s = { s with
    store := storeWrite (blockOf (s.journal.head - 1)) erasedBlock s.store
    journal := { s.journal with op := .programming } } := if_pos erasing

theorem programDone_programming (programming : s.journal.op = .programming) (queue : s.journal.queue = d :: rest) :
    programDone s = { s with
      store := storeWrite (blockOf (s.journal.head - 1)) (blockBytes (s.journal.head - 1) d) s.store
      journal := { s.journal with op := .verifying } } := by
  unfold programDone
  split
  next c more _ held =>
    obtain ⟨rfl, rfl⟩ := List.cons.inj (queue.symm.trans held)
    rfl
  next other => exact absurd queue (other d rest programming)

/-- Settles O51: the two edges of the pin, a write that is held and one that begins, and the three stages. -/
theorem writesGoThroughTheirStages : Obligations.WritesGoThroughTheirStages := by
  intro s active quiet j block
  refine ⟨?_, ?_, fun held => ?_, fun d rest protect power free ready sound queue fresh plain => ?_,
    fun erasing => ?_, fun d rest programming queue => ?_, fun d rest a verifying queue differing => ?_⟩
  · exact ⟨_, congrArg Host.Outcome.next ((if_pos active).trans (congrArg settle (startRead_protected rfl))),
      settle_rest quiet⟩
  · exact ⟨_, congrArg Host.Outcome.next (if_pos active), settle_rest quiet⟩
  · exact leaves_active writeIfPossible rfl active (writeIfPossible_held held) quiet
  · have begun := Writable.begun ⟨free, ready, sound, protect, power, queue⟩ plain fun placed =>
      absurd (fresh.symm.trans placed) Bool.false_ne_true
    rw [fresh] at begun
    exact leaves_active writeIfPossible rfl active begun quiet
  · exact leaves_active eraseDone rfl active (eraseDone_erasing erasing) quiet
  · exact leaves_active programDone rfl active (programDone_programming programming queue) quiet
  · have run := readback_differs active verifying queue differing
    have journal : (settle (blockDiffers a s)).journal = (blockDiffers a s).journal :=
      congrArg Prod.snd (settle_books (blockDiffers a s))
    have store : (settle (blockDiffers a s)).store = (readBlock block a s.store).2 :=
      (store_of_kept (kept_of_works (settle_works (blockDiffers a s)))).trans (store_of_kept (badPosition_kept _))
    refine ⟨_, run, store, (congrArg Journal.consecutive journal).trans (badPosition_consecutive queue),
      fun few room => journal.trans (badPosition_moves queue few room), fun stops => ?_⟩
    obtain ⟨op, failed, is⟩ := badPosition_fails
      (s := { s with store := (readBlock block a s.store).2 }) stops
    have failed := journal.trans failed
    exact ⟨congrArg Journal.failed failed, (congrArg Journal.queue failed :), (congrArg Journal.head failed :),
      is.imp (congrArg Journal.op failed).trans (congrArg Journal.op failed).trans⟩

end Sys2Proof.Machine
end

section
/-! The request JOURNAL_READ and the block reads that serve it (R166). -/

namespace Sys2Proof.Machine

variable {s t : State} {q : Seq} {rq : Request} {count page : Nat} {job : ReadJob} {rest : List ReadJob}
  {a : StoreAnswer}

/-! ### The request -/

/-- The page of a reply that carries no data (R173). -/
theorem pageOf_bare (page : Nat) : pageOf page [] = num 1 page ++ num 1 1 := by
  have none : (if page < pageCount [] then ((([] : List Byte).drop (page * 116)).take 116) else []) = [] := by simp
  rw [pageOf, none, List.append_nil]
  rfl

theorem doJournalRead_unready (unready : s.journal.mount ≠ .ready) :
    doJournalRead q count page rq s = answer 27 rq .notReady (num 1 page ++ num 1 1) s := by
  rw [← pageOf_bare]
  exact if_pos unready

/-- Both ends of the positions asked for are unreleased (R158, R166). -/
def ReadInside (q : Seq) (count : Nat) (j : Journal) : Prop :=
  isUnreleased j q = true ∧ isUnreleased j (q + BitVec.ofNat 32 count - 1) = true

theorem readInside_iff {j : Journal} : (!(isUnreleased j q && isUnreleased j (q + BitVec.ofNat 32 count - 1))) = true
    ↔ ¬ReadInside q count j := by
  rw [ReadInside, Bool.not_eq_true', ← Bool.not_eq_true, Bool.and_eq_true]

theorem doJournalRead_range (ready : s.journal.mount = .ready) (outside : ¬ReadInside q count s.journal) :
    doJournalRead q count page rq s = answer 27 rq .range (num 1 page ++ num 1 1) s := by
  rw [← pageOf_bare]
  exact (if_neg (not_not.2 ready)).trans (if_pos (readInside_iff.2 outside))

/-- A read that is taken waits, or takes the free store at once (R166). -/
theorem doJournalRead_taken (ready : s.journal.mount = .ready) (inside : ReadInside q count s.journal) :
    doJournalRead q count page rq s = { s with
      journal := { s.journal with
        reads := s.journal.reads ++ [{ seq := q, count := count, page := page, done := 0, entries := [] }]
        op := if s.journal.op = .free ∧ ¬(s.journal.turn = .record ∧ canBeginWrite s = true) then .reading
          else s.journal.op }
      agent := { s.agent with
        deferred := s.agent.deferred ++ [{ source := rq.source, tag := rq.tag, code := 27 }] } } := by
  refine (if_neg (not_not.2 ready)).trans ((if_neg fun outside => readInside_iff.1 outside inside).trans ?_)
  rw [startRead_eq]
  simp only [withJournal_journal, ne_eq, List.append_eq_nil_iff, List.cons_ne_nil, and_false, not_false_eq_true,
    true_and]
  rfl

theorem serveJournalRead_asked (a : Asks rq (.journalRead q count page) s) :
    serveJournalRead rq (taken s) = doJournalRead q count page rq (taken s) := by
  have carries : parseReq (taken s).stationAddress 27 rq.params = some (.journalRead q count page) := a.carries
  simp only [serveJournalRead, carries]

/-! ### The block reads -/

/-- The job with the entry of a block read joined to it. -/
def ReadJob.joined (entry : List Byte) (job : ReadJob) : ReadJob :=
  { job with done := job.done + 1, entries := job.entries ++ entry }

/-- The position whose block is read next for a job. -/
def ReadJob.position (job : ReadJob) : Seq := job.seq + BitVec.ofNat 32 job.done

/-- The block of a job's position as the store answers it, and the store. -/
def blockRead (a : StoreAnswer) (job : ReadJob) (s : State) : List Byte × Store :=
  readBlock (blockOf job.position) a s.store

/-- The job with the entry of the block the store answers. -/
def readOn (a : StoreAnswer) (job : ReadJob) (s : State) : ReadJob :=
  job.joined (readEntry job.position (blockRead a job s).1)

/-- The last block of the first read in line read: the store is free, and a waiting record goes first. -/
def readEnded (a : StoreAnswer) (job : ReadJob) (rest : List ReadJob) (s : State) : State :=
  { s with
    store := (blockRead a job s).2
    journal := { s.journal with reads := rest, op := .free, turn := .record } }

theorem readBlockDone_eq (reading : s.journal.op = .reading) (reads : s.journal.reads = job :: rest) :
    readBlockDone a s =
      if job.done + 1 < job.count then { s with
        store := (blockRead a job s).2
        journal := { s.journal with reads := readOn a job s :: rest } }
      else startRead (sendDeferred 27 .ok (pageOf job.page (num 1 job.count ++ (readOn a job s).entries))
        (readEnded a job rest s)) := by
  unfold readBlockDone
  split
  next c more _ held =>
    obtain ⟨rfl, rfl⟩ := List.cons.inj (reads.symm.trans held)
    rfl
  next other => exact absurd reads (other job rest reading)

/-! ### A reply goes out while a read takes the store -/

/-- The offer of a frame that is no DRIVE turns on the loop and the time alone, and leaves the journal. -/
theorem offer_withJournal (f : Frame) (o : Owner) (g : Journal → Journal) (report : f.kind ≠ kindDrive)
    (quiet : s.loop.port = .idle → s.loop.transit = [] ∧ s.loop.queue = []) :
    (offer f o (withJournal g s)).2 = withJournal g (offer f o s).2 := by
  by_cases idle : s.loop.port = .idle
  · rw [offer_idle f o report idle (quiet idle), offer_idle (s := withJournal g s) f o report idle (quiet idle)]
    rfl
  · rw [offer_busy f o report idle, offer_busy (s := withJournal g s) f o report idle]
    by_cases room : s.loop.queue.length < 32
    · rw [if_pos room, if_pos (show (withJournal g s).loop.queue.length < 32 from room)]
      rfl
    · rw [if_neg room, if_neg (show ¬(withJournal g s).loop.queue.length < 32 from room)]
      rfl

theorem canBeginWrite_congr (journal : t.journal = s.journal) (pins : t.pins = s.pins) :
    canBeginWrite t = canBeginWrite s := by
  simp only [canBeginWrite, writeOrder, journal, pins]

/-- What a waiting read does turns on the journal and the pins alone (R166). -/
theorem startRead_congr (journal : t.journal = s.journal) (pins : t.pins = s.pins) :
    startRead t = withJournal (fun _ => (startRead s).journal) t := by
  rw [startRead_eq, startRead_eq, journal, canBeginWrite_congr journal pins]
  rfl

/-- A read that takes the store after a reply is offered takes it as well before. -/
theorem startRead_offer (f : Frame) (o : Owner) (report : f.kind ≠ kindDrive)
    (quiet : s.loop.port = .idle → s.loop.transit = [] ∧ s.loop.queue = []) :
    startRead (offer f o s).2 = (offer f o (startRead s)).2 := by
  have bare := offer_bare f o s
  have journal : (offer f o s).2.journal = s.journal := (congrArg State.journal bare :)
  have pins : (offer f o s).2.pins = s.pins := (congrArg State.pins bare :)
  rw [startRead_congr journal pins,
    ← offer_withJournal f o (fun _ => (startRead s).journal) report quiet, ← startRead_congr rfl rfl]

theorem sendDeferred_some {code : Nat} {r : Result} {data : List Byte} {d : Deferred}
    (found : s.agent.deferred.find? (fun d => d.code == code) = some d) : sendDeferred code r data s =
      let u := withAgent (fun a => { a with deferred := a.deferred.eraseP fun d => d.code == code }) s
      (offer (replyFrame u d.source d.tag (BitVec.ofNat 8 code) r data) .agent u).2 := by
  unfold sendDeferred
  rw [found]
  rfl

/-- Settles O53: the two refusals and the read taken, then a block before the last and the last. -/
theorem journalReadRequests : Obligations.JournalReadRequests := by
  refine ⟨fun q count page rq s asks => ?_, fun job rest a s active quiet => ?_⟩
  · intro i j job inside bare
    have run := serveJournalRead_asked asks
    refine ⟨fun unready => ?_, fun ready outside => ?_, fun ready inside => ?_⟩
    · exact answers_of (serveJournalRead rq) rfl asks.toTakes
        (run.trans (doJournalRead_unready (s := taken s) unready)) asks.tells asks.arbiter
    · exact answers_of (serveJournalRead rq) rfl asks.toTakes
        (run.trans (doJournalRead_range (s := taken s) ready outside)) asks.tells asks.arbiter
    · exact leaves_of (serveJournalRead rq) rfl asks.toTakes
        (run.trans (doJournalRead_taken (s := taken s) ready inside)) asks.tells
  · intro j reading reads q block entries
    have done := readBlockDone_eq (a := a) reading reads
    refine ⟨fun more => ?_, fun last d found arbiter => ?_⟩
    · rw [if_pos more] at done
      exact leaves_active (readBlockDone a) rfl active done quiet
    · let u := withAgent (fun a => { a with deferred := a.deferred.eraseP fun d => d.code == 27 })
        (readEnded a job rest s)
      let frame := replyFrame s d.source d.tag 27 .ok (pageOf job.page (num 1 job.count ++ entries))
      have report : frame.kind ≠ kindDrive := show kindReply ≠ kindDrive by decide
      have run : readBlockDone a s = (offer frame .agent (startRead u)).2 := by
        rw [done, if_neg (Nat.not_lt.2 last), sendDeferred_some (s := readEnded a job rest s) found]
        exact startRead_offer (s := u) frame .agent report arbiter
      have started := startRead_eq u
      obtain ⟨sent, left⟩ := offered_sent (s := startRead u) frame report (by rw [started]; exact quiet)
        (by rw [started]; exact arbiter)
      refine ⟨_, congrArg Host.Outcome.next ((if_pos active).trans (congrArg settle run)), ?_⟩
      generalize settle (offer frame .agent (startRead u)).2 = t at sent left
      rw [started] at sent left
      have journal := journal_of_rest left
      refine ⟨(congrArg State.store left :), (congrArg Journal.reads journal :),
        (congrArg (fun u : State => u.agent.deferred) left :),
        fun none => (congrArg Journal.op journal).trans (if_neg fun ⟨_, waits, _⟩ => waits none),
        (congrArg Journal.queue journal :), sent.begun, sent.joined, sent.refused⟩

end Sys2Proof.Machine
end

section
/-! The requests JOURNAL_RELEASE and JOURNAL_RETRY (R162, R165), and a failure that comes again (R177, R178). -/

namespace Sys2Proof.Machine

variable {s t u : State} {q : Seq} {rq : Request} {d : Draft} {rest : List Draft} {i : Instr} {code : Nat}
  {r : Result} {data : List Byte}

/-! ### JOURNAL_RELEASE (R165) -/

theorem releaseResult_eq (q : Seq) (s : State) : releaseResult q s =
    if s.journal.mount ≠ .ready then .notReady
    else if ¬(∃ c, s.journal.lastClose = some c ∧ laterSeq q s.journal.tail = true
      ∧ laterSeq q (c.seq + 1) = false) then .range
    else if s.journal.orphans ≠ [] ∨ 0 < s.journal.unlisted then .orphans
    else if ∃ d ∈ s.journal.queue, d.body.isRelease = true then .busy
    else if freeRoom s.journal < 1 then .journalFull
    else if 4 ≤ s.journal.queue.length then .busy
    else .ok := by
  simp only [releaseResult, queueHasPlace, ← Bool.not_eq_true, Option.any_eq_true, Bool.and_eq_true,
    Bool.not_eq_true', Bool.or_eq_true, List.isEmpty_iff, decide_eq_true_iff, List.any_eq_true, not_lt, ne_eq]

theorem room_of_releaseResult (ok : releaseResult q s = .ok) : s.journal.queue.length < 4 := by
  rw [releaseResult_eq] at ok
  split_ifs at ok with _ _ _ _ _ full
  exact Nat.not_le.1 full

theorem doJournalRelease_refused (refused : releaseResult q s ≠ .ok) :
    doJournalRelease q rq s = answer 28 rq (releaseResult q s) [] s := by
  unfold doJournalRelease
  split
  · exact absurd ‹_› refused
  · rfl

theorem doJournalRelease_accepted (ok : releaseResult q s = .ok) :
    doJournalRelease q rq s = deferReply rq 28 (recordQueued (releaseDraft q s) s) := by
  simp only [doJournalRelease, ok, offerRecord_room _ (room_of_releaseResult ok)]

theorem serveJournalRelease_asked (a : Asks rq (.journalRelease q) s) :
    serveJournalRelease rq (taken s) = doJournalRelease q rq (taken s) := by
  have carries : parseReq (taken s).stationAddress 28 rq.params = some (.journalRelease q) := a.carries
  simp only [serveJournalRelease, carries]

/-! ### JOURNAL_RETRY (R162) -/

theorem serveJournalRetry_asked (a : Asks rq .journalRetry s) :
    serveJournalRetry rq (taken s) = doJournalRetry rq (taken s) := by
  have carries : parseReq (taken s).stationAddress 29 rq.params = some .journalRetry := a.carries
  simp only [serveJournalRetry, carries]

/-- The state with the write queue's failure cleared, so that JOURNAL_FAILED has left (R162, R177). -/
def retried (s : State) : State :=
  leaveConds { s with journal := { s.journal with failed := false, consecutive := 0 } }

theorem doJournalRetry_unready (unready : s.journal.mount ≠ .ready) :
    doJournalRetry rq s = answer 29 rq .notReady [] s := if_neg unready

theorem doJournalRetry_sound (ready : s.journal.mount = .ready) (sound : s.journal.failed = false) :
    doJournalRetry rq s = answer 29 rq .ok [] s := by
  have stays : retryWrite s = s := if_neg (Bool.eq_false_iff.1 sound)
  rw [doJournalRetry, if_pos ready, stays]

theorem doJournalRetry_failed (ready : s.journal.mount = .ready) (failed : s.journal.failed = true) :
    doJournalRetry rq s = answer 29 rq .ok [] (writeIfPossible (retried s)) := by
  have again : retryWrite s = writeIfPossible (retried s) := if_pos failed
  rw [doJournalRetry, if_pos ready, again]

/-! ### Conditions that have left (R177, R178) -/

/-- A condition whose cause does not hold leaves the acknowledged set (R178). -/
theorem not_mem_leaveConds_acked {k : Cond} (ended : condCause s k = false) : k ∉ (leaveConds s).agent.acked := by
  intro mem
  obtain ⟨_, stays⟩ := List.mem_filter.1 mem
  obtain ⟨_, holds⟩ := List.mem_filter.1 (List.mem_of_elem_eq_true stays)
  exact Bool.false_ne_true (ended.symm.trans holds)

/-- An offer of a frame that is no DRIVE leaves the Management Agent's records. -/
theorem offer_agent_of_report {f : Frame} (o : Owner) (s : State) (report : f.kind ≠ kindDrive) :
    (offer f o s).2.agent = s.agent := by
  rw [offer_report f o s report]
  split
  · exact enterQueue_agent ..
  · rfl

theorem answer_agent (code : Nat) (rq : Request) (r : Result) (data : List Byte) (s : State) :
    (answer code rq r data s).agent = s.agent :=
  offer_agent_of_report .agent s (show kindReply ≠ kindDrive by decide)

theorem attention_acked (s : State) : (attention s).agent.acked = s.agent.acked := by
  have offered : (offer (reportFrame s 1 (condMask s.agent.conditions)) .agent s).2.agent.acked = s.agent.acked :=
    congrArg Agent.acked (offer_agent_of_report .agent s (show kindReport ≠ kindDrive by decide))
  unfold attention
  split
  · rfl
  · simp only
    split <;> exact offered

theorem joinIfCaused_acked (s : State) (c : Cond) : (joinIfCaused s c).agent.acked = s.agent.acked := by
  unfold joinIfCaused joinCond
  split
  · simp only
    split
    · rfl
    · exact attention_acked _
  · rfl

theorem joinAll_acked (l : List Cond) (s : State) : (l.foldl joinIfCaused s).agent.acked = s.agent.acked := by
  induction l generalizing s with
  | nil => rfl
  | cons c l ih => rw [List.foldl_cons, ih, joinIfCaused_acked]

theorem refreshAll_acked (l : List Vessel) (s : State) : (l.foldl refreshSync s).agent.acked = s.agent.acked := by
  induction l generalizing s with
  | nil => rfl
  | cons v l ih => rw [List.foldl_cons, ih]; rfl

/-- The end of a command acknowledges nothing (R178). -/
theorem mem_acked_of_settle {k : Cond} (quiet : s.tells = []) (mem : k ∈ (settle s).agent.acked) :
    k ∈ s.agent.acked := by
  have synced : k ∈ (syncConditions (vessels.foldl refreshSync s)).agent.acked := by
    rw [settle, drainTells_nil 64 quiet] at mem
    exact mem
  rw [← refreshAll_acked vessels s]
  unfold syncConditions at synced
  split at synced
  · rw [joinIfCaused_acked, joinAll_acked] at synced
    exact (List.mem_filter.1 synced).1
  · exact synced

/-! ### A REPLY in another state -/

/-- What a frame offered shows turns on the loop and the time alone. -/
theorem Sent.of_loop {f : Frame} (h : Sent f s t) (loop : s.loop = u.loop) (time : s.loopTime = u.loopTime) :
    Sent f u t := by
  obtain ⟨begun, joined, refused⟩ := h
  rw [loop] at begun joined refused
  rw [time] at joined
  exact ⟨begun, joined, refused⟩

/-- An answer turns on the loop and on what `State.rest` keeps alone. -/
theorem Answers.of_rest (h : Answers i code rq r data s t) (rest : t.rest = u.rest) (loop : t.loop = u.loop) :
    Answers i code rq r data s u := by
  obtain ⟨x, run, left, sent⟩ := h
  have station : t.stationAddress = u.stationAddress := (congrArg State.stationAddress rest :)
  have frame : replyFrame t rq.source rq.tag (BitVec.ofNat 8 code) r data
      = replyFrame u rq.source rq.tag (BitVec.ofNat 8 code) r data := by
    rw [replyFrame, replyFrame, station]
  exact ⟨x, run, left.trans rest, frame ▸ sent.of_loop loop (congrArg State.loopTime rest :)⟩

/-- With no notice under way and nothing waiting at a free port, a reply tells no block. -/
theorem answer_tells (quiet : s.tells = [])
    (arbiter : s.loop.port = .idle → s.loop.transit = [] ∧ s.loop.queue = []) :
    (answer code rq r data s).tells = [] := by
  have report : (replyFrame s rq.source rq.tag (BitVec.ofNat 8 code) r data).kind ≠ kindDrive :=
    show kindReply ≠ kindDrive by decide
  unfold answer reply
  by_cases idle : s.loop.port = .idle
  · rw [offer_idle _ _ report idle (arbiter idle)]
    exact quiet
  · rw [offer_busy _ _ report idle]
    split <;> exact quiet

theorem journalRelease_accepted (a : Asks rq (.journalRelease q) s) (ok : releaseResult q (taken s) = .ok) :
    Leaves (.journalRelease rq) s { taken s with
      journal := { s.journal with
        reservations := s.journal.reservations + 1, queue := s.journal.queue ++ [releaseDraft q (taken s)] }
      agent := { (taken s).agent with
        deferred := s.agent.deferred ++ [{ source := rq.source, tag := rq.tag, code := 28 }] } } :=
  leaves_of (serveJournalRelease rq) rfl a.toTakes
    ((serveJournalRelease_asked a).trans (doJournalRelease_accepted ok)) a.tells

/-- The state in which a write begun again has found no room: the journal has failed afresh (R162, R177). -/
def failedAgain (op : StoreOp) (s : State) : State :=
  { retried s with
    journal := { s.journal with failed := true, consecutive := 0, op := op, turn := .read } }

/-- A retry whose write finds no room: JOURNAL_FAILED has left the acknowledged set and joins the conditions again
(R162, R177, R178). -/
theorem failed_again {op : StoreOp} (a : Asks rq .journalRetry s)
    (run : serveJournalRetry rq (taken s) = answer 29 rq .ok [] (failedAgain op (taken s))) :
    ∃ t, exec (.journalRetry rq) s = .next t ∧ Replied 29 rq .ok [] t ∧ t.works = (taken s).works
      ∧ t.journal.failed = true ∧ t.journal.consecutive = 0 ∧ t.journal.queue = s.journal.queue
      ∧ t.journal.head = s.journal.head ∧ .journalFailed ∈ t.agent.conditions ∧ .journalFailed ∉ t.agent.acked := by
  let u := answer 29 rq .ok [] (failedAgain op (taken s))
  have quiet : u.tells = [] := answer_tells a.tells a.arbiter
  have bare : u.bare = (failedAgain op (taken s)).bare := answer_bare ..
  have journal : (settle u).journal = (failedAgain op (taken s)).journal :=
    (congrArg Prod.snd (settle_books u)).trans (congrArg State.journal bare :)
  have active : u.mode = .active := (congrArg State.mode bare).trans a.active
  refine ⟨settle u, ?_, replied_settled .., (settled_works ..).trans rfl, congrArg Journal.failed journal,
    congrArg Journal.consecutive journal, (congrArg Journal.queue journal :), (congrArg Journal.head journal :), ?_,
    fun mem => ?_⟩
  · exact congrArg Host.Outcome.next ((onRequest_takes (serveJournalRetry rq) a.toTakes).trans (congrArg settle run))
  · exact (mem_settle_conditions (k := .journalFailed) nofun active).2 (congrArg Journal.failed journal)
  · have acked : u.agent.acked = (retried (taken s)).agent.acked := congrArg Agent.acked (answer_agent ..)
    exact not_mem_leaveConds_acked (k := .journalFailed) rfl (acked ▸ mem_acked_of_settle quiet mem)

/-- Settles O55: a release refused and one taken; then a retry by what holds the write of the head. -/
theorem journalReleaseAndRetryRequests : Obligations.JournalReleaseAndRetryRequests := by
  refine ⟨fun q rq s asks => ?_, fun rq s asks => ?_⟩
  · intro i j result
    have resultIs : releaseResult q (taken s) = result := releaseResult_eq ..
    refine ⟨fun refused => ?_, fun accepted =>
      ⟨releaseDraft q (taken s), _, rfl, rfl, journalRelease_accepted asks (resultIs.trans accepted)⟩⟩
    rw [← resultIs] at refused ⊢
    exact answers_of (serveJournalRelease rq) rfl asks.toTakes
      ((serveJournalRelease_asked asks).trans (doJournalRelease_refused refused)) asks.tells asks.arbiter
  · intro i j
    have run := serveJournalRetry_asked asks
    refine ⟨fun unready => ?_, fun ready sound => ?_, fun ready failed protect => ?_,
      fun d rest ready failed protect power free queue placed => ?_⟩
    · exact answers_of (serveJournalRetry rq) rfl asks.toTakes
        (run.trans (doJournalRetry_unready (s := taken s) unready)) asks.tells asks.arbiter
    · exact answers_of (serveJournalRetry rq) rfl asks.toTakes
        (run.trans (doJournalRetry_sound (s := taken s) ready sound)) asks.tells asks.arbiter
    · rw [doJournalRetry_failed (s := taken s) ready failed,
        writeIfPossible_held (s := retried (taken s)) (.inl protect)] at run
      exact (answers_of (serveJournalRetry rq) rfl asks.toTakes run asks.tells asks.arbiter).of_rest rfl rfl
    · rw [doJournalRetry_failed (s := taken s) ready failed] at run
      have writable : Writable d rest (retried (taken s)) := ⟨free, ready, rfl, protect, power, queue⟩
      refine ⟨fun plain room => ?_, fun full => ?_⟩
      · rw [writable.begun_again placed plain room] at run
        exact (answers_of (serveJournalRetry rq) rfl asks.toTakes run asks.tells asks.arbiter).of_rest rfl rfl
      · rw [writable.fails placed full] at run
        obtain ⟨op, failure, _⟩ := failQueue_eq (retried (taken s))
        rw [failure] at run
        exact failed_again asks run

end Sys2Proof.Machine
end

section
/-! The laws of a step and of the state after reset: what a step takes, that every command leaves the commands waiting
behind it, and the full-reset values. -/

namespace Sys2Proof.Machine

variable {s t : State}

/-! ### A step -/

theorem step_of_pending {c : Instr} {rest : List Instr} (h : s.pending = c :: rest) :
    step s = exec c { s with pending := rest } := by
  unfold step
  rw [h]
  rfl

theorem step_of_own {i : Instr} (h : s.pending = []) (own : ownStep s = some i) : step s = exec i s := by
  unfold step
  rw [h]
  unfold idle
  rw [own]

theorem step_of_no_own (h : s.pending = []) (own : ownStep s = none) : step s = .next (tick s) := by
  unfold step
  rw [h]
  unfold idle
  rw [own]

theorem tick_held (h : s.mode = .inReset) : tick s = s := if_pos h

theorem tick_running (h : s.mode ≠ .inReset) : tick s = { s with loopTime := s.loopTime + 1 } := if_neg h

/-- Settles O1. -/
theorem stepRunsTheFrontCommand : Obligations.StepRunsTheFrontCommand := fun _ _ _ h => step_of_pending h

/-- Settles O2. -/
theorem stepWithNoCommandWaiting : Obligations.StepWithNoCommandWaiting := by
  intro s h
  refine ⟨fun i own => step_of_own h own, fun own running => ?_, fun own held => ?_⟩
  · rw [step_of_no_own h own, tick_running running]
  · rw [step_of_no_own h own, tick_held held]

/-! ### The commands that wait -/

theorem pending_of_fixed (h : t.fixed = s.fixed) : t.pending = s.pending := congrArg Fixed.pending h

theorem pending_of_kept (h : t.kept = s.kept) : t.pending = s.pending := pending_of_fixed (fixed_of_kept h)

/-- The end of a command leaves the commands that wait. -/
theorem settle_pending (s : State) : (settle s).pending = s.pending := pending_of_kept (settle_kept s)

theorem startUp_pending (s : State) : (startUp s).pending = s.pending := by
  unfold startUp
  split
  · rw [settle_pending, pending_of_kept (syncAllCauses_kept _)]; rfl
  · rfl

/-- A full reset hands the commands that wait to the cleared state (log 35). -/
theorem fullReset_pending (r : Bool) (a : Byte) (s : State) : (fullReset r a s).pending = s.pending := by
  unfold fullReset
  simp only
  split
  · rfl
  · exact startUp_pending _

theorem releaseReset_pending (a : Byte) (s : State) : (releaseReset a s).pending = s.pending := by
  unfold releaseReset
  split
  · exact startUp_pending _
  · rfl

theorem serveReset_pending (a : Byte) (rq : Request) (s : State) : (serveReset a rq s).pending = s.pending := by
  unfold serveReset doResetFull
  split
  · split
    · exact pending_of_kept (answer_kept ..)
    · exact fullReset_pending ..
  · exact pending_of_kept (doResetVessels_kept ..)
  · exact pending_of_kept (answer_kept ..)

/-- A request command leaves the commands that wait when its service does. -/
theorem onRequest_pending (q : Queued) {f : State → State} (h : ∀ s, (f s).pending = s.pending) (s : State) :
    (onRequest q f s).pending = s.pending := by
  unfold onRequest
  split
  · rw [settle_pending]
    split
    · exact h s
    · split
      · exact h _
      · exact pending_of_kept (queueRequest_kept q s)
  · rfl

theorem effect_pending {i : Instr} (e : Effect s i t) : t.pending = s.pending := by
  cases e with
  | nothing | repeats => rfl
  | acts _ k => exact pending_of_kept (whenActive_kept _ k.kept s)
  | serves _ q k => exact pending_of_kept (onRequest_kept q _ k.kept s)
  | @pins _ p _ _ k => exact pending_of_kept (s := { s with pins := p }) (whenActive_kept _ k.kept _)
  | stores _ k => exact pending_of_fixed (whenActive_fixed k.fixed s)
  | resets r a => exact fullReset_pending r a s
  | released a => exact releaseReset_pending a s
  | resetRequest _ a rq _ => exact onRequest_pending _ (serveReset_pending a rq) s

/-- Settles O7: every command completes with one of the effects listed, and none of them takes a command that waits. -/
theorem everyCommandCompletes : Obligations.EveryCommandCompletes := by
  intro c s
  obtain ⟨t, run, effect⟩ := command_effect c s
  exact ⟨t, run, effect_pending effect⟩

/-! ### The values after reset -/

/-- Every cell of a table at its full-reset value is 0. -/
theorem cellAt_zeroTable (rows fields row field : Nat) : cellAt (zeroTable rows fields) row field = 0 := by
  unfold cellAt zeroTable
  by_cases inside : row < rows
  · rw [List.getD_replicate _ inside]
    exact List.getElem?_getD_replicate_default_eq ..
  · rw [List.getD_eq_default (List.replicate rows _) [] (by simpa using inside)]
    rfl

/-- No row of the Point Table is valid after a full reset (R18). -/
theorem pointValid_zero (r : Nat) : pointValid .zero r = false := by
  have cell : cellAt Tables.zero.point r 8 = 0 := cellAt_zeroTable 128 9 r 8
  unfold pointValid validCell
  rw [cell]
  rfl

/-- Every entry of the Point Table is empty after reset (R29). -/
theorem entryOf_reset (r : Nat) : entryOf .reset r = .empty := List.getElem?_getD_replicate_default_eq ..

/-- Every vessel after reset: AUTO, unlocked, EMPTY, and its sequencer IDLE (R34, R62, R75). -/
theorem vessel_reset (v : Vessel) :
    State.reset.vessels.get v = .cleared ∧ State.reset.seqs.get v = .cleared :=
  ⟨PerVessel.get_all _ v, PerVessel.get_all _ v⟩

/-- Settles O3: point by point, vessel by vessel, and the rest as `State.reset` lists it. -/
theorem resetHasTheStatedValues : Obligations.ResetHasTheStatedValues := by
  have points : ∀ r < 128, pointValid State.reset.tables r = false ∧ entryOf .reset r = .empty :=
    fun r _ => ⟨pointValid_zero r, entryOf_reset r⟩
  have vessels : ∀ v, (State.reset.vessels.get v).authority = .auto
      ∧ (State.reset.vessels.get v).supervisorLock = false
      ∧ (State.reset.vessels.get v).stepLock = false ∧ (State.reset.vessels.get v).occupancy = .empty
      ∧ (State.reset.vessels.get v).occupant = none ∧ (State.reset.seqs.get v).state = .idle := by
    intro v
    obtain ⟨vessel, seq⟩ := vessel_reset v
    rw [vessel, seq]
    exact ⟨rfl, rfl, rfl, rfl, rfl, rfl⟩
  exact ⟨rfl, rfl, rfl, rfl, rfl, rfl, rfl, rfl, points, vessels, rfl, rfl, rfl, rfl, rfl, rfl, rfl, rfl, rfl, rfl,
    rfl, rfl, rfl, rfl, rfl, rfl, rfl⟩

end Sys2Proof.Machine
end
